-- ==== Sys2Proof/Word.lean ====
section
/-! DEFINITION. The word types of the Icarnel 824: what the manual treats as bits. -/

namespace Sys2Proof

/-- One byte of a frame (spec R179). -/
abbrev Byte := BitVec 8

/-- A two-byte number of a frame (spec R179). -/
abbrev Half := BitVec 16

/-- The 16-bit number that links answers to the frames that caused them (spec TABLE 10-1 and the tag convention). -/
abbrev Tag := BitVec 16

/-- A set of buses, bit b for bus Bb (spec R179). -/
abbrev BusSet := BitVec 8

/-- The 32 pin flags of one group, bit k for position k (spec R179). -/
abbrev PinFlags := BitVec 32

/-- One flag for each of the 384 pins. -/
abbrev PinRow := BitVec 384

/-- A set of crosspoints. Crosspoint (b, p) is bit 384 × b + p, its position in the relay driver chain (spec R2). -/
abbrev Crosspoints := BitVec 3072

/-- A site 0..7. -/
abbrev Site := Fin 8

/-- A set of sites, bit s for site s (spec R179). -/
abbrev SiteMask := BitVec 8

/-- A bus B0..B7. -/
abbrev Bus := Fin 8

/-- A lane 0..11, which also numbers its instrument. -/
abbrev LaneId := Fin 12

/-- A tap 0..3. -/
abbrev TapId := Fin 4

/-- An index of the step table. -/
abbrev StepId := Fin 1024

/-- An index of the limit table. -/
abbrev LimitId := Fin 512

/-- An index of the patch table. -/
abbrev PatchId := Fin 256

/-- An index of the channel table, lane × 8 + channel (spec R100). -/
abbrev ChannelId := Fin 96

end Sys2Proof
end

