-- ==== Sys2Proof/Syntax.lean ====
section
/-! DEFINITION. The commands of the block: one constructor for each row of spec/opcode_table.json, with the fields of the request
or event as spec section 10.7 lays them out. -/

namespace Sys2Proof

/-- A table entry of the relay-type table as it stands in a request (spec TABLE 10-12, id 1). -/
structure RelayTypeRaw where
  index : Byte
  operate : Half
  release : Half
deriving DecidableEq, Repr

/-- A bus-table entry in a request (spec TABLE 10-12, id 2). -/
structure BusRaw where
  index : Byte
  owner : Byte
  relayType : Byte
  exclusion : Byte
deriving DecidableEq, Repr

/-- A site-table entry in a request (spec TABLE 10-12, id 3). -/
structure SiteRaw where
  index : Byte
  firstGroup : Byte
  groupCount : Byte
  skew : Byte
  panel : Byte
  startStep : Half
  claimWait : Half
  holdLimit : Half
  batch : Byte
  options : Byte
deriving DecidableEq, Repr

/-- An instrument-table entry in a request (spec TABLE 10-12, id 4). -/
structure InstrumentRaw where
  lane : Byte
  node : Byte
  policy : Byte
  channels : Byte
deriving DecidableEq, Repr

/-- A channel-table entry in a write request (spec TABLE 10-12, id 5). -/
structure ChannelRaw where
  index : Byte
  attach : Byte
  offset : BitVec 24
  gain : Half
  exponent : Byte
deriving DecidableEq, Repr

/-- A limit-table entry in a request (spec TABLE 10-12, id 6). -/
structure LimitRaw where
  index : Half
  low : BitVec 24
  high : BitVec 24
  guard : Half
  mode : Byte
deriving DecidableEq, Repr

/-- A patch operation in a request (spec TABLE 10-11). -/
structure OpRaw where
  group : Byte
  rep : Byte
  kind : Byte
  enable : Byte
  force : Byte
  forceClose : Byte
  pattern : PinFlags
  mask : PinFlags
deriving DecidableEq, Repr

/-- A patch-table entry in a request (spec TABLE 10-12, id 7). -/
structure PatchRaw where
  index : Byte
  ops : List OpRaw
deriving DecidableEq, Repr

/-- A step-table entry in a request (spec TABLE 10-12, id 8). -/
structure StepRaw where
  index : Half
  patch : Half
  instrument : Byte
  channel : Byte
  mode : Byte
  sampleCode : Byte
  setup : Half
  limit : Half
  settle : Half
  collect : Half
  flags : Byte
  next : Half
deriving DecidableEq, Repr

/-- The settings of one tap in a request (spec TABLE 10-12, id 9). -/
structure TapRaw where
  index : Byte
  enabled : Byte
  node : Byte
  channel : Byte
  notify : Byte
deriving DecidableEq, Repr

/-- What SET LANES gives for one lane (spec TABLE 10-13). -/
structure LaneSetRaw where
  lane : Byte
  demand : Byte
  loopback : Byte
deriving DecidableEq, Repr

/-- The line condition a card sends (spec section 8.1). -/
inductive CardCondition where
  | quiet
  | answer
  | stream
deriving DecidableEq, Repr

/-- A place of the commit queue (spec R23). -/
inductive Place where
  | site (s : Site)
  | host (k : Fin 4)
deriving DecidableEq, Repr

/-- The commands, in the order of spec/opcode_table.json. A management request is the arrival of a management frame of the host
that carries the request (DEDUCED, log 2). -/
inductive Instr where
  /-- A whole frame, header to CRC, arrives on the trunk (spec R167). -/
  | trunkFrameReceive (bytes : List Byte)
  /-- A management frame whose payload no request layout admits (spec R169). -/
  | badRequest (tag : Tag) (payload : List Byte)
  | nop (tag : Tag)
  | readStatus (tag : Tag) (clear : Byte)
  | writeRelayTypeTable (tag : Tag) (entries : List RelayTypeRaw)
  | writeBusTable (tag : Tag) (entries : List BusRaw)
  | writeSiteTable (tag : Tag) (entries : List SiteRaw)
  | writeInstrumentTable (tag : Tag) (entries : List InstrumentRaw)
  | writeChannelTable (tag : Tag) (entries : List ChannelRaw)
  | writeLimitTable (tag : Tag) (entries : List LimitRaw)
  | writePatchTable (tag : Tag) (entries : List PatchRaw)
  | writeStepTable (tag : Tag) (entries : List StepRaw)
  | readTable (tag : Tag) (table : Byte) (first : Half) (count : Byte)
  | setLanes (tag : Tag) (settings : List LaneSetRaw)
  | patch (tag : Tag) (override : Byte) (holdLimit : Half) (ops : List OpRaw)
  | readMatrix (tag : Tag) (group : Byte)
  | verifyMatrix (tag : Tag) (group : Byte) (expected : BusSet) (care : BusSet)
  | start (tag : Tag) (sites : SiteMask)
  | halt (tag : Tag) (sites : SiteMask)
  | resume (tag : Tag) (sites : SiteMask)
  | abort (tag : Tag) (sites : SiteMask) (panel : Byte)
  | credit (tag : Tag) (site : Byte) (amount : Byte)
  | readSite (tag : Tag) (sites : SiteMask)
  | setTaps (tag : Tag) (settings : List TapRaw)
  | takeTaps (tag : Tag)
  | setSilence (tag : Tag) (setting : Byte)
  | enterSafe (tag : Tag)
  | clearSafe (tag : Tag)
  | resetRun (tag : Tag)
  | resetFull (tag : Tag)
  /-- The transmitter finishes sending the RESET FULL response (spec R178). -/
  | resetFullExecute
  | powerOn
  | rstNAssert
  | rstNRelease
  /-- The trunk transmitter is free and the arbiter chooses (spec R176). -/
  | transmitChoice
  | safeReqAssert
  | safeReqRelease
  | silenceTimerExpire
  /-- The PRESENT input of a site takes a level (spec R60). -/
  | presentChange (site : Site) (level : Bool)
  | breakPhaseEnd
  | makePhaseEnd
  | holdTimerExpire (place : Place)
  | claimWaitTimerExpire (site : Site)
  | settleTimerEnd (site : Site)
  | collectTimerExpire (site : Site)
  /-- A whole frame reaches a lane's receiver, from the card or through the internal loop (spec R133, R144). -/
  | laneFrameReceive (lane : LaneId) (fromLoop : Bool) (bytes : List Byte)
  | cardConditionChange (lane : LaneId) (condition : CardCondition)
  | wakeWindowExpire (lane : LaneId)
  | alignWindowExpire (lane : LaneId)
  | lostWindowExpire (lane : LaneId)
  | retryTimeExpire (lane : LaneId)
  | drainLimitExpire (lane : LaneId)
  | quietTimerReach (lane : LaneId)
  | loopWindowExpire (lane : LaneId)
  /-- The lane transmitter is free (spec R132). -/
  | laneSendBegin (lane : LaneId)
deriving DecidableEq, Repr

end Sys2Proof
end

