-- ==== Sys2Proof/Config.lean ====
section
/-! DEFINITION. What the spec fixes as capacities and durations, and the free values of the model. -/

namespace Sys2Proof.Config

/-! ### Capacities (spec TABLE 0-3) -/

/-- Frames in the trunk input buffer (spec R168). -/
abbrev inputPlaces : Nat := 8
/-- Events in the event buffer (spec R175). -/
abbrev eventPlaces : Nat := 16
/-- BNC frames in the bounce queue (spec R157). -/
abbrev bouncePlaces : Nat := 16
/-- Frames in a lane transmit queue, part and host frames together (spec R158). -/
abbrev lanePlaces : Nat := 8
/-- Frames in a lane's up buffer (spec R162). -/
abbrev upPlaces : Nat := 4
/-- Step places of a result queue (spec R117). -/
abbrev stepPlaces : Nat := 32
/-- Records in one RES frame (spec R125). -/
abbrev recordsPerFrame : Nat := 16
/-- Bytes of payload in one frame (spec R133, R167). -/
abbrev maxPayload : Nat := 1024

/-! ### Durations, in µs -/

/-- One millisecond. -/
abbrev ms : Nat := 1000
/-- The wake window (spec R136). -/
abbrev wakeWindow : Nat := 20 * ms
/-- The align window (spec R137). -/
abbrev alignWindow : Nat := 10 * ms
/-- The lost window (spec R141). -/
abbrev lostWindow : Nat := 5 * ms
/-- The retry time (spec R142). -/
abbrev retryTime : Nat := 50 * ms
/-- The drain limit (spec R143). -/
abbrev drainLimit : Nat := 8 * ms
/-- How long the card must stay QUIET in DRAINING (spec R143). -/
abbrev quietTime : Nat := 2 * ms
/-- The loop window (spec R144). -/
abbrev loopWindow : Nat := 10 * ms
/-- The least settle time of a step without an instrument (spec R84). -/
abbrev bareSettle : Nat := 1000
/-- Attempts after which a lane is FAULTED (spec R138). -/
abbrev maxAttempts : Nat := 8

/-! ### The model's bound on one event -/

/-- DESIGN CHOICE (log 6). More micro-steps than one event can hold: at most 8 sites × 34 steps × 8 phases, 256 records,
the begins of their commits and the frames and events that wait. -/
abbrev eventFuel : Nat := 4096

/-! ### Free values: nothing in Lean can evaluate them -/

/-- DESIGN CHOICE (log 5). The n-th free choice: which of several things that fall at one instant is taken first (spec R30, R46,
R90, R175). It is used only modulo the number of things to choose among. -/
opaque freeChoice : Nat → Nat

/-- DESIGN CHOICE (log 10). Whether a lane that enters OFF and leaves it in the same event calls when its card is answering
(spec R135 does not say whether passing through is being in OFF). -/
opaque callsInPassing : Bool

/-- DESIGN CHOICE (log 11). Whether a time that is not a whole number of milliseconds is reported rounded up (spec R57 gives no
rounding). -/
opaque roundsUp : Nat → Bool

/-- DESIGN CHOICE (log 13). The attribution-step field of a tap record that has no attribution (spec TABLE 10-12 states a value for
the site field only). -/
opaque noAttributionStep : Half

end Sys2Proof.Config
end

