-- ==== Sys2Proof/Machine/State.lean ====
section
/-! DEFINITION. Everything the spec gives the part to hold, block by block, and its value after a full reset. -/

namespace Sys2Proof.Machine

/-- The spec gives the block no fault. -/
inductive Fault where
  /-- Raised by nothing: no command of the spec stops the part. -/
  | none
deriving DecidableEq, Repr

/-- Why a command has no meaning. -/
inductive Refusal where
  /-- Raised by an arm of exec whose command has no meaning yet; safe, since the machine stops. No arm uses it. -/
  | notModelled (mnemonic : String)
deriving DecidableEq, Repr

/-! ### Frames -/

/-- A frame, less its CRC (spec TABLE 10-5). The payload length field is the payload's length. -/
structure Frame where
  dest : Byte
  source : Byte
  kind : Byte
  flags : Byte
  tag : Tag
  payload : List Byte
deriving DecidableEq, Repr

/-- The state of a lane (spec TABLE 8-1). -/
inductive LaneState where
  | off
  | waking
  | aligning
  | up
  | lost
  | retryWait
  | faulted
  | draining
  | loop
deriving DecidableEq, Repr

/-- A line condition that a lane unit signals toward its card (spec TABLE 8-2). -/
inductive LineCondition where
  | quiet
  | wake
  | stream
deriving DecidableEq, Repr

/-- The causes of the SAFE state, bit 0 FULL_RESET, 1 SILENCE, 2 INPUT, 3 REQUEST (spec TABLE 11-1, TABLE 10-8). -/
abbrev CauseSet := BitVec 4

/-- Why a site paused (spec R67). -/
inductive PauseReason where
  | halt
  | stopOnFail
deriving DecidableEq, Repr

/-- An event with the data of its EVT frame (spec TABLE 10-8). -/
inductive Event where
  | lane (l : LaneId) (state : LaneState) (attempts : Nat)
  | laneCall (l : LaneId)
  | safeEnter (causes : CauseSet)
  | safeClear
  | hotBus (b : Bus)
  | openExpired (s : Site)
  | tap (t : TapId)
  | sitePaused (s : Site) (step : StepId) (reason : PauseReason)
  | board (s : Site) (present : Bool)
deriving DecidableEq, Repr

/-- Why a host frame could not be forwarded (spec TABLE 10-7). -/
inductive BounceReason where
  | noRoute
  | badTag
  | laneDown
  | held
  | laneFull
deriving DecidableEq, Repr

/-- A BNC frame waiting in the bounce queue (spec R157). -/
structure Bounce where
  tag : Tag
  reason : BounceReason
  node : Byte
deriving DecidableEq, Repr

/-- The status codes of responses (spec TABLE 10-9). -/
inductive Status where
  | ok
  | badRequest
  | badValue
  | inUse
  | busy
  | safe
  | noBoard
  | overlap
  | exclusion
  | busForeign
  | limitOrder
  | holdTimeout
  | cancelled
  | safeActive
  | duplicateNode
deriving DecidableEq, Repr

/-! ### Tables -/

/-- Relay times in µs (spec R3). -/
structure RelayType where
  operate : Nat
  release : Nat
deriving DecidableEq, Repr

/-- A bus-table entry; the owner is a site, or none for SHARED (spec TABLE 1-1). -/
structure BusEntry where
  owner : Option Site
  relayType : Fin 4
  exclusion : BusSet
deriving DecidableEq, Repr

/-- A site-table entry (spec TABLE 4-1). -/
structure SiteEntry where
  firstGroup : Nat
  groupCount : Nat
  skew : Nat
  panel : Fin 8
  startStep : StepId
  claimWait : Nat
  holdLimit : Nat
  batch : Nat
  markAll : Bool
  openOnAbort : Bool
deriving DecidableEq, Repr

/-- An instrument-table entry; the policy is SITE s, or none for POOLED (spec TABLE 9-1). -/
structure InstrumentEntry where
  node : Byte
  policy : Option Site
  channels : Nat
deriving DecidableEq, Repr

/-- What a channel's output is known to be (spec R152). -/
inductive Output where
  | off
  | on
  | unknown
deriving DecidableEq, Repr

/-- The calibration fields of a channel (spec TABLE 6-1). -/
structure Calibration where
  offset : Int
  gain : Nat
  exponent : Int
deriving DecidableEq, Repr

/-- A channel-table entry (spec R100, R152). -/
structure ChannelEntry where
  attach : Option Bus
  cal : Calibration
  output : Output
deriving DecidableEq, Repr

/-- The mode of a limit entry (spec TABLE 6-2). -/
inductive LimitMode where
  | both
  | low
  | high
  | record
deriving DecidableEq, Repr

/-- A limit-table entry (spec TABLE 6-2). -/
structure LimitEntry where
  low : Int
  high : Int
  guard : Nat
  mode : LimitMode
deriving DecidableEq, Repr

/-- How a patch operation combines its data with the present connections (spec R13). -/
inductive Combine where
  | set
  | join
  | cut
  | flip
deriving DecidableEq, Repr

/-- A write operation of a patch (spec TABLE 1-2). -/
structure PatchOp where
  group : Nat
  rep : Nat
  kind : Combine
  pattern : PinFlags
  mask : PinFlags
  enable : BusSet
  force : BusSet
  forceClose : BusSet
deriving DecidableEq, Repr

/-- The mode of a step (spec TABLE 5-1). -/
inductive StepMode where
  | average
  | series
deriving DecidableEq, Repr

/-- A step-table entry; none stands for NONE, and for END in next (spec TABLE 5-1). -/
structure StepEntry where
  patch : Option PatchId
  instrument : Option LaneId
  channel : Fin 8
  mode : StepMode
  sampleCode : Nat
  setup : Half
  limit : Option LimitId
  settle : Nat
  collect : Nat
  keep : Bool
  stopOnFail : Bool
  mark : Bool
  raw : Bool
  next : Option StepId
deriving DecidableEq, Repr

/-- The eight host-loaded tables. -/
structure Tables where
  relays : Vector RelayType 4
  buses : Vector BusEntry 8
  sites : Vector SiteEntry 8
  instruments : Vector InstrumentEntry 12
  channels : Vector ChannelEntry 96
  limits : Vector LimitEntry 512
  patches : Vector (List PatchOp) 256
  steps : Vector StepEntry 1024
deriving DecidableEq, Repr

/-! ### Matrix and transition engine -/

/-- The matrix image; the values in the relay driver chain, by position; and the pattern that the relay drivers took at the last pulse
of RDC-STB (spec R1, R2). -/
structure Matrix where
  image : Crosspoints
  chain : Crosspoints
  drivers : Crosspoints
deriving DecidableEq, Repr

/-- A signal of the part to the relay driver chain: a value shifted in, with RDC-CLK and RDC-DAT, or a pulse of RDC-STB (spec R2). -/
inductive ChainSignal where
  | shift (value : Bool)
  | strobe
deriving DecidableEq, Repr

/-- What a commit carries besides its origin (spec TABLE 2-1). -/
inductive Work where
  | step (patch : PatchId)
  | siteOpen
  | host (tag : Tag) (override : Bool) (ops : List PatchOp)
deriving DecidableEq, Repr

/-- A queued commit; its hold limit in ms and what is left of it in µs (spec R23). -/
structure Commit where
  place : Place
  work : Work
  holdLimit : Nat
  remaining : Nat
deriving DecidableEq, Repr

/-- A whole-matrix opening (spec R40). -/
inductive OpenKind where
  | safeOpen
  | runOpen
deriving DecidableEq, Repr

/-- Kind and origin of a transition; a STEP commit whose site was stopped has no origin (spec R33, R36). -/
inductive FlightKind where
  | step (origin : Option Site)
  | siteOpen (s : Site)
  | host (tag : Tag)
  | opening (k : OpenKind)
deriving DecidableEq, Repr

/-- A phase of a transition (spec R33). -/
inductive FlightPhase where
  | breaking
  | making
deriving DecidableEq, Repr

/-- The transition in flight; `cut` when SAFE entry dropped its make phase (spec R33, R41). -/
structure Transition where
  kind : FlightKind
  opening : Crosspoints
  closing : Crosspoints
  phase : FlightPhase
  remaining : Nat
  cut : Bool
deriving DecidableEq, Repr

/-- The transition engine: the queue oldest first, the transition in flight, the pending whole-matrix openings oldest first, and
the transition flags (spec R23, R33, R37, R40). -/
structure Engine where
  queue : List Commit
  flight : Option Transition
  openings : List OpenKind
  flags : BusSet
deriving DecidableEq, Repr

/-! ### Claims -/

/-- The claim record of one instrument (spec R43). -/
structure ClaimRecord where
  holder : Option Site
  waits : List Site
deriving DecidableEq, Repr

/-- The claim records, and each site's claim wait timer in µs (spec R43). -/
structure Claims where
  records : Vector ClaimRecord 12
  timers : Vector (Option Nat) 8
deriving DecidableEq, Repr

/-! ### Sites and steps -/

/-- The state of a site (spec R62). -/
inductive SiteState where
  | idle
  | running
  | paused
deriving DecidableEq, Repr

/-- A phase of a step (spec R79). -/
inductive Phase where
  | load
  | claim
  | apply
  | settle
  | trigger
  | collect
  | judge
  | release
deriving DecidableEq, Repr

/-- OK, or why a step failed (spec TABLE 5-3). -/
inductive Cause where
  | ok
  | claimTimeout
  | foreign
  | noInstrument
  | patchRange
  | exclusion
  | busForeign
  | holdTimeout
  | lane
  | collectTimeout
deriving DecidableEq, Repr

/-- A judgement (spec section 6.4). -/
inductive Verdict where
  | none
  | pass
  | marginal
  | failLow
  | failHigh
  | failRange
  | noData
deriving DecidableEq, Repr

/-- A raw value with its overrange flag (spec R87). -/
structure Sample where
  raw : Int
  overrange : Bool
deriving DecidableEq, Repr

/-- The context of a running step (spec TABLE 5-2). `anyFail` says that the step has placed a record of rank 3 (spec R66). The
timers are in µs. -/
structure StepContext where
  index : StepId
  entry : StepEntry
  phase : Phase
  cause : Cause
  tag : Option Tag
  attach : Option Bus
  cal : Option Calibration
  samples : List Sample
  short : Bool
  extra : Bool
  disturbed : Bool
  limit : Option LimitEntry
  placed : Nat
  anyFail : Bool
  settleTimer : Option Nat
  collectTimer : Option Nat
deriving DecidableEq, Repr

/-- A site run record with its step context (spec TABLE 4-2, R79). -/
structure Run where
  state : SiteState
  step : StepId
  number : Nat
  seq : Nat
  pause : Bool
  pass : Nat
  marginal : Nat
  fail : Nat
  worst : Verdict
  firstFail : Option StepId
  stepsRun : Nat
  ctx : Option StepContext
deriving DecidableEq, Repr

/-! ### Results -/

/-- A step record (spec TABLE 7-1). -/
structure StepRecord where
  run : Nat
  step : StepId
  series : Nat
  verdict : Verdict
  cause : Cause
  value : Option Int
  samplesUsed : Nat
  overrange : Bool
  sat : Bool
  short : Bool
  disturbed : Bool
  extra : Bool
  exponent : Int
  limit : Option LimitId
  rawMean : Option Int
  mark : Bool
deriving DecidableEq, Repr

/-- How a run ended (spec TABLE 7-2). -/
inductive EndCause where
  | ended
  | abortHost
  | abortPanel
  | absent
  | safe
deriving DecidableEq, Repr

/-- A summary record (spec TABLE 7-2). -/
structure Summary where
  run : Nat
  cause : EndCause
  pass : Nat
  marginal : Nat
  fail : Nat
  worst : Verdict
  firstFail : Option StepId
  stepsRun : Nat
deriving DecidableEq, Repr

/-- The result queue of one site, oldest record first (spec R117). -/
structure ResultQueue where
  records : List StepRecord
  summary : Option Summary
  credit : Nat
  seq : Nat
deriving DecidableEq, Repr

/-! ### Lanes and taps -/

/-- The outcome of the loopback test (spec R144). -/
inductive LoopStatus where
  | untested
  | testing
  | good
  | bad
deriving DecidableEq, Repr

/-- A lane unit (spec TABLE 8-1). The transmit queue is its part frames and behind them its host frames (spec R158); `sending` is the
frame on the line (spec R132). Timers are in µs. `leftStep` is the model's own field: the trigger tag and the channel of the step whose
COLLECT the lane's departure from UP ended, while a reading can still meet that departure (spec R90 b, R163 c; log 30). -/
structure Lane where
  state : LaneState
  demand : Bool
  loopback : Bool
  attempts : Nat
  timer : Option Nat
  quiet : Option Nat
  goodRun : Nat
  badRun : Nat
  called : Bool
  loopStatus : LoopStatus
  card : CardCondition
  partFrames : List Frame
  hostFrames : List Frame
  upBuffer : List Frame
  sending : Option Frame
  leftStep : Option (Tag × Fin 8)
deriving DecidableEq, Repr

/-- A tap record: its setting and what it captured (spec TABLE 9-6). -/
structure Tap where
  enabled : Bool
  node : Byte
  channel : Fin 8
  notify : Bool
  fresh : Bool
  last : Option Sample
  attribution : Option (Site × StepId)
  overrun : Nat
deriving DecidableEq, Repr

/-! ### Trunk and protection -/

/-- The four counters (spec R174). -/
structure Counters where
  badFrames : Nat
  inputDiscards : Nat
  staleReadings : Nat
  forwardDrops : Nat
deriving DecidableEq, Repr

/-- The trunk port and the management unit. `closed` when RESET FULL has been answered (spec R178); `resetRun` is the tag of the
unanswered RESET RUN (spec R177); `sending` the frame in the transmitter (spec R176). -/
structure Trunk where
  input : List Frame
  responses : List Frame
  events : List (Nat × Event)
  eventSeq : Nat
  eventsLost : Bool
  bounces : List Bounce
  sending : Option Frame
  lastLane : LaneId
  lastSite : Site
  closed : Bool
  resetRun : Option Tag
deriving DecidableEq, Repr

/-- The SAFE record (spec TABLE 11-1). -/
structure SafeRecord where
  safe : Bool
  causes : CauseSet
  openDone : Bool
  setting : Nat
  timer : Option Nat
deriving DecidableEq, Repr

/-- The levels of the discrete inputs; the cards' line conditions stand with the lanes (spec TABLE 0-4). -/
structure Inputs where
  rstLow : Bool
  safeReq : Bool
  present : Vector Bool 8
deriving DecidableEq, Repr

/-- Everything the part holds. `freeCount`, `due` and `pending` are the model's own: the free choices drawn so far, the events whose
order inside the event is open (log 5), and the commands that wait. -/
structure State where
  inputs : Inputs
  tables : Tables
  matrix : Matrix
  engine : Engine
  claims : Claims
  runs : Vector Run 8
  results : Vector ResultQueue 8
  lanes : Vector Lane 12
  taps : Vector Tap 4
  counters : Counters
  trunk : Trunk
  protection : SafeRecord
  freeCount : Nat
  due : List Event
  pending : List Instr
deriving DecidableEq, Repr

/-! ### Reset values -/

/-- A relay type after a full reset (spec R3). -/
abbrev RelayType.reset : RelayType := { operate := 2000, release := 2000 }

/-- A bus entry after a full reset (spec TABLE 1-1). -/
abbrev BusEntry.reset : BusEntry := { owner := none, relayType := 0, exclusion := 0 }

/-- The site entry of site s after a full reset (spec TABLE 4-1). -/
abbrev SiteEntry.reset (s : Site) : SiteEntry :=
  { firstGroup := s, groupCount := 1, skew := 0, panel := s, startStep := 0, claimWait := 1000, holdLimit := 1000, batch := 8,
    markAll := true, openOnAbort := true }

/-- An instrument entry after a full reset (spec TABLE 9-1). -/
abbrev InstrumentEntry.reset : InstrumentEntry := { node := 0, policy := none, channels := 1 }

/-- A channel entry after a full reset (spec TABLE 6-1, R152). -/
abbrev ChannelEntry.reset : ChannelEntry :=
  { attach := none, cal := { offset := 0, gain := 16384, exponent := 0 }, output := .unknown }

/-- A limit entry after a full reset (spec TABLE 6-2). -/
abbrev LimitEntry.reset : LimitEntry := { low := -8388608, high := 8388607, guard := 0, mode := .record }

/-- A step entry after a full reset (spec TABLE 5-1). -/
abbrev StepEntry.reset : StepEntry :=
  { patch := none, instrument := none, channel := 0, mode := .average, sampleCode := 0, setup := 0, limit := none, settle := 0,
    collect := 100, keep := false, stopOnFail := false, mark := false, raw := false, next := none }

/-- The tables after a full reset. -/
abbrev Tables.reset : Tables :=
  { relays := Vector.replicate 4 .reset
    buses := Vector.replicate 8 .reset
    sites := Vector.ofFn SiteEntry.reset
    instruments := Vector.replicate 12 .reset
    channels := Vector.replicate 96 .reset
    limits := Vector.replicate 512 .reset
    patches := Vector.replicate 256 []
    steps := Vector.replicate 1024 .reset }

/-- A run record after a full reset (spec TABLE 4-2). -/
abbrev Run.reset : Run :=
  { state := .idle, step := 0, number := 0, seq := 0, pause := false, pass := 0, marginal := 0, fail := 0, worst := .none,
    firstFail := none, stepsRun := 0, ctx := none }

/-- A result queue after a full reset (spec R117). -/
abbrev ResultQueue.reset : ResultQueue := { records := [], summary := none, credit := 0, seq := 0 }

/-- A lane after a full reset, with its card sending `card` (spec TABLE 8-1). -/
abbrev Lane.reset (card : CardCondition) : Lane :=
  { state := .off, demand := false, loopback := false, attempts := 0, timer := none, quiet := none, goodRun := 0, badRun := 0,
    called := false, loopStatus := .untested, card := card, partFrames := [], hostFrames := [], upBuffer := [], sending := none,
    leftStep := none }

/-- A tap after a full reset (spec TABLE 9-6). -/
abbrev Tap.reset : Tap :=
  { enabled := false, node := 0, channel := 0, notify := false, fresh := false, last := none, attribution := none, overrun := 0 }

/-- The part after a full reset under given input levels, before the events of the reset are raised (spec R178, R188). The cards
send `cards`. The command queue and the count of free choices are the model's own and are not reset. -/
def State.cleared (inputs : Inputs) (cards : Vector CardCondition 12) (freeCount : Nat) (pending : List Instr) : State :=
  { inputs := inputs
    tables := .reset
    matrix := { image := 0, chain := 0, drivers := 0 }
    engine := { queue := [], flight := none, openings := [], flags := 0 }
    claims := { records := Vector.replicate 12 { holder := none, waits := [] }, timers := Vector.replicate 8 none }
    runs := Vector.replicate 8 .reset
    results := Vector.replicate 8 .reset
    lanes := Vector.ofFn fun l : LaneId => .reset cards[l]
    taps := Vector.replicate 4 .reset
    counters := { badFrames := 0, inputDiscards := 0, staleReadings := 0, forwardDrops := 0 }
    trunk := { input := [], responses := [], events := [], eventSeq := 0, eventsLost := false, bounces := [], sending := none,
               lastLane := 11, lastSite := 7, closed := false, resetRun := none }
    protection := { safe := true, causes := if inputs.safeReq then 0b0101 else 0b0001, openDone := true, setting := 0,
                    timer := none }
    freeCount := freeCount
    due := []
    pending := pending }

/-- The part right after reset: DESIGN CHOICE (log 1) with every input inactive and every card QUIET. The one event of the reset,
SAFE_ENTER with the cause FULL_RESET, stands in the event buffer (spec R175, R188). -/
def State.reset : State :=
  let s := State.cleared { rstLow := false, safeReq := false, present := Vector.replicate 8 false } (Vector.replicate 12 .quiet) 0 []
  { s with trunk := { s.trunk with events := [(0, .safeEnter 0b0001)], eventSeq := 1 } }

end Sys2Proof.Machine
end

