-- ==== Sys2Proof/Machine/Bytes.lean ====
section
/-! DEFINITION. Byte order, the CRC and the common frame format (spec R179). -/

namespace Sys2Proof.Machine

/-- A two-byte number, most significant byte first (spec R179). -/
def bytes2 (x : Half) : List Byte := [x.extractLsb' 8 8, x.extractLsb' 0 8]

/-- A three-byte number, most significant byte first (spec R179). -/
def bytes3 (x : BitVec 24) : List Byte := [x.extractLsb' 16 8, x.extractLsb' 8 8, x.extractLsb' 0 8]

/-- A four-byte number, most significant byte first (spec R179). -/
def bytes4 (x : BitVec 32) : List Byte :=
  [x.extractLsb' 24 8, x.extractLsb' 16 8, x.extractLsb' 8 8, x.extractLsb' 0 8]

/-- The number of two bytes, most significant first. -/
def word2 (a b : Byte) : Half := a ++ b

/-- The number of three bytes, most significant first. -/
def word3 (a b c : Byte) : BitVec 24 := a ++ b ++ c

/-- The number of four bytes, most significant first. -/
def word4 (a b c d : Byte) : BitVec 32 := a ++ b ++ c ++ d

/-- A byte that holds a number. -/
def byteOf (n : Nat) : Byte := BitVec.ofNat 8 n

/-- Two bytes that hold a number. -/
def bytes2Of (n : Nat) : List Byte := bytes2 (BitVec.ofNat 16 n)

/-- A byte whose bit k is the k-th flag of the list (spec R179). -/
def flagByte (flags : List Bool) : Byte :=
  BitVec.ofNat 8 (flags.foldr (fun b n => 2 * n + b.toNat) 0)

/-- A flag byte: 1 for set. -/
def boolByte (b : Bool) : Byte := if b then 1 else 0

/-- One shift of the CRC register with the polynomial x^16 + x^12 + x^5 + 1 (spec R179). -/
def crcShift (crc : BitVec 16) : BitVec 16 := if crc.msb then (crc <<< 1) ^^^ 0x1021 else crc <<< 1

/-- One byte through the CRC, most significant bit first. -/
def crcByte (crc : BitVec 16) (b : Byte) : BitVec 16 :=
  Nat.repeat crcShift 8 (crc ^^^ (b ++ (0 : Byte)))

/-- The CRC-16 of a byte sequence: initial value 0xFFFF, no reflection, no final inversion (spec R179). -/
def crc16 (bytes : List Byte) : BitVec 16 := bytes.foldl crcByte 0xFFFF

/-! ### Kinds and nodes (spec TABLE 10-5, TABLE 10-1) -/

namespace Kind
abbrev idle : Byte := 0x00
abbrev cmd : Byte := 0x10
abbrev irsp : Byte := 0x11
abbrev rdg : Byte := 0x20
abbrev sta : Byte := 0x21
abbrev trg : Byte := 0x30
abbrev can : Byte := 0x31
abbrev off : Byte := 0x32
abbrev mgt : Byte := 0x40
abbrev rsp : Byte := 0x41
abbrev res : Byte := 0x42
abbrev evt : Byte := 0x43
abbrev bnc : Byte := 0x44
end Kind

/-- The part's node (spec TABLE 10-1). -/
abbrev nodePart : Byte := 240
/-- The host's node (spec TABLE 10-1). -/
abbrev nodeHost : Byte := 250
/-- The broadcast node (spec TABLE 10-1). -/
abbrev nodeBroadcast : Byte := 255

/-- Whether FORCE is set in a frame's flags byte (spec TABLE 10-5). -/
def Frame.force (f : Frame) : Bool := f.flags.getLsbD 0

/-- A frame as sent, header, payload and CRC (spec R179). -/
def Frame.bytes (f : Frame) : List Byte :=
  let body := [f.dest, f.source, f.kind, f.flags] ++ bytes2 f.tag ++ bytes2Of f.payload.length ++ f.payload
  body ++ bytes2 (crc16 body)

/-- The frame that a received byte sequence holds, if its CRC is correct, its length field lies in 0..1024 and equals the number of
payload bytes received, and no flag but FORCE is set (spec R133, R167 a to c). -/
def readFrame (bytes : List Byte) : Option Frame :=
  match bytes with
  | d :: src :: k :: fl :: t1 :: t0 :: l1 :: l0 :: rest =>
    let payload := rest.take (rest.length - 2)
    let body := [d, src, k, fl, t1, t0, l1, l0] ++ payload
    let length := (word2 l1 l0).toNat
    if 2 ≤ rest.length ∧ rest.drop (rest.length - 2) = bytes2 (crc16 body) ∧ length ≤ Config.maxPayload
        ∧ length = payload.length ∧ fl &&& 0xFE = 0 then
      some { dest := d, source := src, kind := k, flags := fl, tag := word2 t1 t0, payload := payload }
    else none
  | _ => none

/-- A frame of the part to the host (spec R128, R157, R169, R175). -/
def toHost (kind : Byte) (tag : Tag) (payload : List Byte) : Frame :=
  { dest := nodeHost, source := nodePart, kind := kind, flags := 0, tag := tag, payload := payload }

/-- A frame of the part to an instrument (spec TABLE 9-3, R132). -/
def toInstrument (node kind : Byte) (tag : Tag) (payload : List Byte) : Frame :=
  { dest := node, source := nodePart, kind := kind, flags := 0, tag := tag, payload := payload }

/-- A management frame of the host (spec R168 a, TABLE 10-7). -/
def mgtFrame (tag : Tag) (payload : List Byte) : Frame :=
  { dest := nodePart, source := nodeHost, kind := Kind.mgt, flags := 0, tag := tag, payload := payload }

/-- The part tag 0x8000 + site × 4096 + sequence (spec R86, R128). -/
def partTag (s : Site) (seq : Nat) : Tag := BitVec.ofNat 16 (0x8000 + s.val * 4096 + seq)

/-- The index of a number in a table of n entries, if it is one. -/
def toFin? (n k : Nat) : Option (Fin n) := if h : k < n then some ⟨k, h⟩ else none

end Sys2Proof.Machine
end

