-- ==== Sys2Proof/Machine/Ops.lean ====
section
/-! DEFINITION. The named operations the other blocks are written with: updates of one part of the state, events, responses, bounces,
buffers, free choices and the passing of time. -/

namespace Sys2Proof.Machine

/-! ### Updates of one part of the state -/

def State.onInputs (f : Inputs → Inputs) (s : State) : State := { s with inputs := f s.inputs }
def State.onTables (f : Tables → Tables) (s : State) : State := { s with tables := f s.tables }
def State.onMatrix (f : Matrix → Matrix) (s : State) : State := { s with matrix := f s.matrix }
def State.onEngine (f : Engine → Engine) (s : State) : State := { s with engine := f s.engine }
def State.onClaims (f : Claims → Claims) (s : State) : State := { s with claims := f s.claims }
def State.onCounters (f : Counters → Counters) (s : State) : State := { s with counters := f s.counters }
def State.onTrunk (f : Trunk → Trunk) (s : State) : State := { s with trunk := f s.trunk }
def State.onProtection (f : SafeRecord → SafeRecord) (s : State) : State := { s with protection := f s.protection }
def State.onRun (i : Site) (f : Run → Run) (s : State) : State := { s with runs := s.runs.set i (f s.runs[i]) }
def State.onResult (i : Site) (f : ResultQueue → ResultQueue) (s : State) : State :=
  { s with results := s.results.set i (f s.results[i]) }
def State.onLane (l : LaneId) (f : Lane → Lane) (s : State) : State := { s with lanes := s.lanes.set l (f s.lanes[l]) }
def State.onTap (t : TapId) (f : Tap → Tap) (s : State) : State := { s with taps := s.taps.set t (f s.taps[t]) }

/-- Updates a site's step context, if it has one. -/
def State.onCtx (i : Site) (f : StepContext → StepContext) (s : State) : State :=
  s.onRun i fun r => { r with ctx := r.ctx.map f }

/-- Every site, in ascending order. -/
abbrev allSites : List Site := List.finRange 8
/-- Every lane, in ascending order. -/
abbrev allLanes : List LaneId := List.finRange 12
/-- Every bus, in ascending order. -/
abbrev allBuses : List Bus := List.finRange 8
/-- Every tap, in ascending order. -/
abbrev allTaps : List TapId := List.finRange 4

/-- The sites of a mask, in ascending order (spec section 4.4). -/
def sitesOf (m : SiteMask) : List Site := allSites.filter fun s => m.getLsbD s

/-- The set of buses with a property. -/
def busSet (p : Bus → Bool) : BusSet := BitVec.ofNat 8 (allBuses.foldr (fun b n => 2 * n + (p b).toNat) 0)

/-- The mask of the sites with a property. -/
def siteMask (p : Site → Bool) : SiteMask := BitVec.ofNat 8 (allSites.foldr (fun b n => 2 * n + (p b).toNat) 0)

/-- The channel-table entry of a lane's channel, lane × 8 + channel (spec R100). -/
def channelId (l : LaneId) (c : Fin 8) : ChannelId := ⟨l.val * 8 + c.val, by omega⟩

/-- The lane a channel-table entry belongs to. -/
def laneOfChannel (c : ChannelId) : LaneId := ⟨c.val / 8, by omega⟩

/-- Adds one to a saturating 16-bit counter (spec R61, R174). -/
def satInc (n : Nat) : Nat := min (n + 1) 65535

/-! ### Free choices (log 5) -/

/-- Takes the elements of a list in a free order; a list of at most one element needs no choice. Answers the order and the number of
choices drawn so far. -/
def freeOrder {α : Type} : Nat → Nat → List α → List α × Nat
  | 0, n, l => (l, n)
  | _, n, [] => ([], n)
  | _, n, [a] => ([a], n)
  | k + 1, n, a :: b :: l =>
    let i := Config.freeChoice n % (l.length + 2)
    let r := freeOrder k (n + 1) ((a :: b :: l).eraseIdx i)
    ((a :: b :: l).getD i a :: r.1, r.2)

/-- One of the elements of a non-empty list, freely chosen where there is more than one. -/
def freePick {α : Type} (a : α) (l : List α) (n : Nat) : α × Nat :=
  match l with
  | [] => (a, n)
  | b :: t => ((a :: b :: t).getD (Config.freeChoice n % (t.length + 2)) a, n + 1)

/-! ### Events, responses, bounces -/

/-- Raises an event: it takes the event sequence, and enters the buffer or is lost (spec R175). -/
def raise (e : Event) (s : State) : State :=
  s.onTrunk fun t =>
    if t.events.length < Config.eventPlaces then
      { t with events := t.events ++ [(t.eventSeq, e)], eventSeq := (t.eventSeq + 1) % 4096 }
    else { t with eventsLost := true, eventSeq := (t.eventSeq + 1) % 4096 }

/-- Raises the events of one moment in a free order (spec R175; log 5). -/
def raiseFree (es : List Event) (s : State) : State :=
  let o := freeOrder es.length s.freeCount es
  o.1.foldl (fun s e => raise e s) { s with freeCount := o.2 }

/-- Leaves an event to be raised in this event, before or after what the other blocks still do in it (spec R175; log 5). -/
def raiseDue (e : Event) (s : State) : State := { s with due := s.due ++ [e] }

/-- The code of a status (spec TABLE 10-9). -/
def Status.code : Status → Byte
  | .ok => 0
  | .badRequest => 1
  | .badValue => 2
  | .inUse => 3
  | .busy => 4
  | .safe => 5
  | .noBoard => 6
  | .overlap => 7
  | .exclusion => 8
  | .busForeign => 9
  | .limitOrder => 10
  | .holdTimeout => 11
  | .cancelled => 12
  | .safeActive => 13
  | .duplicateNode => 14

/-- An RSP frame: it echoes the request's tag and code, and carries data only with OK (spec R169, TABLE 10-7). -/
def rspFrame (tag : Tag) (code : Byte) (status : Status) (data : List Byte) : Frame :=
  toHost Kind.rsp tag (code :: status.code :: (if status = .ok then data else []))

/-- Places a response at the tail of the response queue (spec R169). -/
def respond (tag : Tag) (code : Byte) (status : Status) (data : List Byte) (s : State) : State :=
  s.onTrunk fun t => { t with responses := t.responses ++ [rspFrame tag code status data] }

/-- Answers an outstanding PATCH request (spec R171). -/
def answerPatch (tag : Tag) (status : Status) (data : List Byte) (s : State) : State := respond tag 0x05 status data s

/-- Counts a dropped forward (spec R157, R162). -/
def countDrop (s : State) : State := s.onCounters fun c => { c with forwardDrops := satInc c.forwardDrops }

/-- Counts a bad trunk frame (spec R167, R168 c). -/
def countBad (s : State) : State := s.onCounters fun c => { c with badFrames := satInc c.badFrames }

/-- Puts a bounce for a host frame into the bounce queue, or drops and counts it when the queue is full (spec R157). -/
def bounce (reason : BounceReason) (f : Frame) (s : State) : State :=
  if s.trunk.bounces.length < Config.bouncePlaces then
    s.onTrunk fun t => { t with bounces := t.bounces ++ [{ tag := f.tag, reason := reason, node := f.dest }] }
  else countDrop s

/-- Forwards a lane frame to the host through the lane's up buffer, or drops and counts it (spec R162). -/
def forwardUp (l : LaneId) (f : Frame) (s : State) : State :=
  if s.lanes[l].upBuffer.length < Config.upPlaces then s.onLane l fun x => { x with upBuffer := x.upBuffer ++ [f] }
  else countDrop s

/-- How many frames a lane transmit queue holds (spec R158). -/
def Lane.queued (l : Lane) : Nat := l.partFrames.length + l.hostFrames.length

/-- Hands a part frame to a lane: it stands behind the other part frames and ahead of the host frames, evicting the youngest host
frame of a full queue (spec R158). -/
def queuePart (l : LaneId) (f : Frame) (s : State) : State :=
  let x := s.lanes[l]
  if x.state ≠ .up then s
  else if x.queued < Config.lanePlaces then s.onLane l fun x => { x with partFrames := x.partFrames ++ [f] }
  else
    match x.hostFrames.getLast? with
    | none => s
    | some youngest =>
      bounce .laneFull youngest
        (s.onLane l fun x => { x with hostFrames := x.hostFrames.dropLast, partFrames := x.partFrames ++ [f] })

/-! ### Time -/

/-- A running timer after d µs; it does not run below 0, where its expiry is due (log 3). -/
def tickTimer (d : Nat) (t : Option Nat) : Option Nat := t.map (· - d)

def Commit.elapse (d : Nat) (c : Commit) : Commit := { c with remaining := c.remaining - d }
def Transition.elapse (d : Nat) (t : Transition) : Transition := { t with remaining := t.remaining - d }
def StepContext.elapse (d : Nat) (c : StepContext) : StepContext :=
  { c with settleTimer := tickTimer d c.settleTimer, collectTimer := tickTimer d c.collectTimer }
def Run.elapse (d : Nat) (r : Run) : Run := { r with ctx := r.ctx.map (StepContext.elapse d) }
def Lane.elapse (d : Nat) (l : Lane) : Lane :=
  { l with timer := tickTimer d l.timer, quiet := tickTimer d l.quiet, leftStep := if d = 0 then l.leftStep else none }

/-- The passing of d µs, in which nothing happens but that the running timers run (log 3), and that a reading no longer meets an earlier
departure from UP (log 30). -/
def State.elapse (d : Nat) (s : State) : State :=
  { s with
    engine := { s.engine with queue := s.engine.queue.map (Commit.elapse d), flight := s.engine.flight.map (Transition.elapse d) }
    claims := { s.claims with timers := Vector.ofFn fun i : Site => tickTimer d s.claims.timers[i] }
    runs := Vector.ofFn fun i : Site => s.runs[i].elapse d
    lanes := Vector.ofFn fun l : LaneId => s.lanes[l].elapse d
    protection := { s.protection with timer := tickTimer d s.protection.timer } }

end Sys2Proof.Machine
end

