-- ==== Sys2Proof/Machine/Claims.lean ====
section
/-! DEFINITION. The claim unit: claim requests, release and the wait lists (spec chapter 3). -/

namespace Sys2Proof.Machine

/-- Updates a claim record. -/
def State.onClaim (l : LaneId) (f : ClaimRecord → ClaimRecord) (s : State) : State :=
  s.onClaims fun c => { c with records := c.records.set l (f c.records[l]) }

/-- Sets a site's claim wait timer. -/
def State.setClaimTimer (i : Site) (t : Option Nat) (s : State) : State :=
  s.onClaims fun c => { c with timers := c.timers.set i t }

/-- The lane of the instrument a site holds, if it holds one (spec R44, R57 a). -/
def State.heldLane (s : State) (i : Site) : Option LaneId := allLanes.find? fun l => s.claims.records[l].holder = some i

/-- The lane of the instrument a site waits for, if it waits (spec R44, R57 b). -/
def State.waitLane (s : State) (i : Site) : Option LaneId := allLanes.find? fun l => s.claims.records[l].waits.contains i

/-- The holder of an instrument releases it: the head of the wait list becomes holder, its timer stops and its step enters APPLY; with
an empty list the holder becomes none (spec R47). -/
def releaseLane (l : LaneId) (s : State) : State :=
  match s.claims.records[l].waits with
  | [] => s.onClaim l fun r => { r with holder := none }
  | h :: rest =>
    ((s.onClaim l fun _ => { holder := some h, waits := rest }).setClaimTimer h none).onCtx h
      fun c => { c with phase := .apply }

/-- Releases any claim a site holds (spec R50). -/
def releaseAny (i : Site) (s : State) : State :=
  match s.heldLane i with
  | none => s
  | some l => releaseLane l s

/-- Releases a site's claim on an instrument, if it holds it (spec R50). -/
def releaseIfHeld (i : Site) (l : LaneId) (s : State) : State :=
  if s.claims.records[l].holder = some i then releaseLane l s else s

/-- Releases any claim of a site on an instrument other than the given one (spec R50, R81). -/
def releaseOther (i : Site) (keep : Option LaneId) (s : State) : State :=
  match s.heldLane i with
  | none => s
  | some l => if keep = some l then s else releaseLane l s

/-- A site leaves the wait list it is in, and its timer stops (spec R48, R51 a). -/
def leaveWaits (i : Site) (s : State) : State :=
  match s.waitLane i with
  | none => s
  | some l => (s.onClaim l fun r => { r with waits := r.waits.filter (· ≠ i) }).setClaimTimer i none

/-- What the claim unit answers to a claim request (spec TABLE 3-1). -/
inductive ClaimAnswer where
  | granted
  | waiting
  | failed (cause : Cause)
deriving DecidableEq, Repr

/-- The answer to a site's claim request (spec R45, TABLE 3-1). -/
def claimAnswer (l : LaneId) (i : Site) (s : State) : ClaimAnswer :=
  let e := s.tables.instruments[l]
  if e.node = 0 then .failed .noInstrument
  else if e.policy ≠ none ∧ e.policy ≠ some i then .failed .foreign
  else if s.claims.records[l].holder = some i ∨ s.claims.records[l].holder = none then .granted
  else .waiting

/-- The claim record after a grant: a free instrument is now held (spec TABLE 3-1, rows 3 and 4). -/
def grant (l : LaneId) (i : Site) (s : State) : State := s.onClaim l fun r => { r with holder := some i }

/-- A site joins the tail of a wait list, and its claim wait timer starts (spec TABLE 3-1, row 5, R46). -/
def joinWaits (l : LaneId) (i : Site) (s : State) : State :=
  (s.onClaim l fun r => { r with waits := r.waits ++ [i] }).setClaimTimer i (some (s.tables.sites[i].claimWait * Config.ms))

/-- What an abort does in the claim unit: the site leaves its wait list, and its claim is released (spec R51). -/
def abandonClaims (i : Site) (s : State) : State := releaseAny i (leaveWaits i s)

/-- RESET RUN in the claim unit: every record and timer is cleared, and nothing is granted (spec R52). -/
def clearClaims (s : State) : State :=
  s.onClaims fun _ =>
    { records := Vector.replicate 12 { holder := none, waits := [] }, timers := Vector.replicate 8 none }

end Sys2Proof.Machine
end

