-- ==== Sys2Proof/Machine/Matrix.lean ====
section
/-! DEFINITION. The crosspoint engine: sets of crosspoints, the evaluation of patches, its checks and the diff (spec chapter 1). -/

namespace Sys2Proof.Machine

/-! ### Sets of crosspoints -/

/-- The pins a bus is connected to (spec R1, R2). -/
def row (x : Crosspoints) (b : Bus) : PinRow := x.extractLsb' (384 * b.val) 384

/-- Whether crosspoint (b, p) is in the set (spec R1). -/
def connected (x : Crosspoints) (b : Bus) (p : Nat) : Bool := decide (p < 384) && x.getLsbD (384 * b.val + p)

/-- The buses that appear in the set (spec R18, R34). -/
def busesIn (x : Crosspoints) : BusSet := busSet fun b => row x b ≠ 0

/-- The number of crosspoints in the set, 0..3,072 (spec R18, R22). -/
def count (x : Crosspoints) : Nat := (List.range 3072).countP fun i => x.getLsbD i

/-- The pins of the groups first .. first + n − 1 (spec R6). -/
def pinsOfGroups (first n : Nat) : PinRow := BitVec.ofNat 384 ((2 ^ (32 * n) - 1) * 2 ^ (32 * first))

/-- The pins of a site's extent (spec R6). -/
def extent (e : SiteEntry) : PinRow := pinsOfGroups e.firstGroup e.groupCount

/-- The crosspoints of the given pins on any bus. -/
def onAnyBus (r : PinRow) : Crosspoints :=
  allBuses.foldl (fun acc b => acc ||| (r.setWidth 3072 <<< (384 * b.val))) 0

/-- The crosspoints with the given flags for each bus at each of the given groups. -/
def atGroups (groups : List Nat) (flags : Bus → PinFlags) : Crosspoints :=
  groups.foldl (fun acc g => allBuses.foldl (fun acc b => acc ||| ((flags b).setWidth 3072 <<< (384 * b.val + 32 * g))) acc) 0

/-! ### The relay driver chain (spec R2) -/

/-- The signals that carry a pattern to the relay drivers: the value of position 3,071 is shifted first and that of position 0 last; then
the strobe (spec R2). -/
def chainSignals (x : Crosspoints) : List ChainSignal :=
  ((List.range 3072).reverse.map fun k => ChainSignal.shift (x.getLsbD k)) ++ [.strobe]

/-- What a signal does to the chain and the drivers: a shift moves every value one position up and puts the new one at position 0; the
strobe gives the drivers the pattern of the chain (spec R2). -/
def Matrix.signal (m : Matrix) (g : ChainSignal) : Matrix :=
  match g with
  | .shift value => { m with chain := (m.chain <<< 1) ||| if value then 1 else 0 }
  | .strobe => { m with drivers := m.chain }

/-- A pattern is shifted into the chain and strobed (spec R2). -/
def Matrix.load (m : Matrix) (x : Crosspoints) : Matrix := (chainSignals x).foldl Matrix.signal m

/-! ### Evaluation (spec R9 to R14) -/

/-- The groups an operation writes, counted from a base group (spec R10). -/
def PatchOp.groups (op : PatchOp) (base : Nat) : List Nat := (List.range (op.rep + 1)).map fun i => base + op.group + i

/-- The per-bus data of the force stage under a skew (spec R11, R12). -/
def PatchOp.data (op : PatchOp) (skew : Nat) (b : Bus) : PinFlags :=
  if op.forceClose.getLsbD b then BitVec.allOnes 32 else if op.force.getLsbD b then 0 else op.pattern.rotateLeft skew

/-- The crosspoints an operation may write (spec R14). -/
def PatchOp.written (op : PatchOp) (base skew : Nat) : Crosspoints :=
  atGroups (op.groups base) fun b => if op.enable.getLsbD b then op.mask.rotateLeft skew else 0

/-- The crosspoints whose data flag is set, among those an operation may write (spec R12, R14). -/
def PatchOp.setData (op : PatchOp) (base skew : Nat) : Crosspoints :=
  atGroups (op.groups base) fun b => if op.enable.getLsbD b then op.data skew b &&& op.mask.rotateLeft skew else 0

/-- One operation on the working copy (spec R13, R14). -/
def PatchOp.apply (op : PatchOp) (base skew : Nat) (copy : Crosspoints) : Crosspoints :=
  let d := op.setData base skew
  match op.kind with
  | .set => (copy &&& ~~~(op.written base skew)) ||| d
  | .join => copy ||| d
  | .cut => copy &&& ~~~d
  | .flip => copy ^^^ d

/-- The operations of a patch in list order (spec R9). -/
def applyOps (ops : List PatchOp) (base skew : Nat) (image : Crosspoints) : Crosspoints :=
  ops.foldl (fun copy op => op.apply base skew copy) image

/-! ### Checks on the finished copy -/

/-- Whether two buses form an exclusion pair (spec R4). -/
def excludes (buses : Vector BusEntry 8) (a b : Bus) : Bool :=
  decide (a ≠ b) && (buses[a].exclusion.getLsbD b || buses[b].exclusion.getLsbD a)

/-- Whether some pin is connected to both buses of an exclusion pair (spec R15, R5 d). -/
def hasExclusion (buses : Vector BusEntry 8) (x : Crosspoints) : Bool :=
  allBuses.any fun a => allBuses.any fun b => excludes buses a b && decide (row x a &&& row x b ≠ 0)

/-- Whether some crosspoint is foreign: on a bus owned by a site, at a pin outside that site's extent (spec R6, R16). -/
def hasForeign (buses : Vector BusEntry 8) (sites : Vector SiteEntry 8) (x : Crosspoints) : Bool :=
  allBuses.any fun b =>
    match buses[b].owner with
    | none => false
    | some t => decide (row x b &&& ~~~(extent sites[t]) ≠ 0)

/-- Whether an operation reaches beyond the extent of a site (spec R10). -/
def beyondExtent (e : SiteEntry) (op : PatchOp) : Bool := decide (e.groupCount ≤ op.group + op.rep)

/-- The two checks on a finished copy, EXCLUSION first (spec R15, R16, R17). -/
def checkCopy (t : Tables) (copy : Crosspoints) : Except Cause Crosspoints :=
  if hasExclusion t.buses copy then .error .exclusion
  else if hasForeign t.buses t.sites copy then .error .busForeign
  else .ok copy

/-- The finished copy of a STEP commit's patch, or why it is refused (spec R9, R10, R15, R16). -/
def evaluateStep (t : Tables) (s : Site) (patch : PatchId) (image : Crosspoints) : Except Cause Crosspoints :=
  let e := t.sites[s]
  let ops := t.patches[patch]
  if ops.any (beyondExtent e) then .error .patchRange else checkCopy t (applyOps ops e.firstGroup e.skew image)

/-- The finished copy of a host patch, or why it is refused (spec R9, R10, R11). -/
def evaluateHost (t : Tables) (ops : List PatchOp) (image : Crosspoints) : Except Cause Crosspoints :=
  checkCopy t (applyOps ops 0 0 image)

/-- The buses a patch touches: its bus-enable and force sets (spec R26). -/
def touchedByOps (ops : List PatchOp) : BusSet := ops.foldl (fun acc op => acc ||| op.enable ||| op.force) 0

/-- The pin flags of one group on a bus (spec R20). -/
def groupFlags (x : Crosspoints) (b : Bus) (group : Nat) : PinFlags := (row x b).extractLsb' (32 * group) 32

/-- The match flags of VERIFY MATRIX (spec R21). -/
def matchFlags (x : Crosspoints) (group : Nat) (expected care : BusSet) : PinFlags :=
  (allBuses.filter fun b : Bus => care.getLsbD b).foldl
    (fun acc (b : Bus) => acc &&& if expected.getLsbD b then groupFlags x b group else ~~~(groupFlags x b group)) (BitVec.allOnes 32)

end Sys2Proof.Machine
end

