-- ==== Sys2Proof/Machine/Flags.lean ====
section
/-! DEFINITION. Derived flags: live and guarded buses, XCLR; and the transition flags with what their rise does. -/

namespace Sys2Proof.Machine

/-- The live buses: those to which a channel is attached whose output is ON or UNKNOWN (spec R27, R154). -/
def State.live (s : State) : BusSet :=
  busSet fun b => s.tables.channels.toList.any fun c => decide (c.attach = some b) && decide (c.output ≠ .off)

/-- The buses guarded for a commit: a channel of an instrument held by a site other than the origin is attached. The origin of a
HOST commit or a SITE-OPEN counts as none (spec R28, R53). -/
def State.guarded (s : State) (origin : Option Site) : BusSet :=
  busSet fun b => (List.finRange 96).any fun c =>
    decide (s.tables.channels[c].attach = some b) &&
      match s.claims.records[laneOfChannel c].holder with
      | none => false
      | some h => decide (some h ≠ origin)

/-- XCLR: the image holds no connection, no transition is in flight, and RST-N is not low (spec R42). -/
def State.xclr (s : State) : Bool := decide (s.matrix.image = 0) && s.engine.flight.isNone && !s.inputs.rstLow

/-- Raises transition flags; a step in COLLECT whose attach bus's flag rises is disturbed (spec R37, R91 b). -/
def raiseFlags (buses : BusSet) (s : State) : State :=
  let rising := buses &&& ~~~s.engine.flags
  let s := s.onEngine fun e => { e with flags := e.flags ||| buses }
  { s with
    runs := Vector.ofFn fun i : Site =>
      let r := s.runs[i]
      { r with
        ctx := r.ctx.map fun c =>
          if c.phase = .collect ∧ (c.attach.any fun b => rising.getLsbD b) then { c with disturbed := true } else c } }

/-- The flagged buses that were not live before and are live now (spec R38). -/
def hotBuses (before after : State) : List Bus :=
  allBuses.filter fun b => after.engine.flags.getLsbD b && !before.live.getLsbD b && after.live.getLsbD b

/-- Raises EVT HOT_BUS for each flagged bus that a change made live (spec R38, R154). -/
def raiseHot (before after : State) : State := raiseFree ((hotBuses before after).map Event.hotBus) after

end Sys2Proof.Machine
end

