-- ==== Sys2Proof/Machine/Judge.lean ====
section
/-! DEFINITION. The judgement unit: conversion of samples and verdicts (spec chapter 6). -/

namespace Sys2Proof.Machine

/-- The least and the greatest 24-bit value (spec R111). -/
abbrev minValue : Int := -8388608
abbrev maxValue : Int := 8388607

/-- Division to the nearest integer, halves away from zero (spec R107). -/
def roundDiv (a : Int) (b : Nat) : Int :=
  let t := a.natAbs / b
  let e := a.natAbs % b
  let m : Nat := if b ≤ 2 * e then t + 1 else t
  if a < 0 then -(m : Int) else m

/-- The sum of the offset-corrected counts (spec R108). -/
def correctedSum (offset : Int) (samples : List Sample) : Int :=
  samples.foldl (fun acc x => acc + (x.raw - offset)) 0

/-- The mean of the offset-corrected counts (spec R109). -/
def rawMean (cal : Calibration) (samples : List Sample) : Int := roundDiv (correctedSum cal.offset samples) samples.length

/-- The mean scaled by the gain, not yet clamped (spec R110). -/
def scaled (cal : Calibration) (mean : Int) : Int := roundDiv (mean * cal.gain) 16384

/-- The value clamped to 24 bits (spec R111). -/
def clamp (u : Int) : Int := if u > maxValue then maxValue else if u < minValue then minValue else u

/-- Whether clamping takes place (spec R111). -/
def saturates (u : Int) : Bool := decide (u > maxValue ∨ u < minValue)

/-- The verdict of a value under a captured limit (spec R113 c and d, R114, R115). -/
def limitVerdict (limit : Option LimitEntry) (v : Int) : Verdict :=
  match limit with
  | none => .none
  | some e =>
    let lo := e.low + e.guard
    let hi := e.high - e.guard
    match e.mode with
    | .record => .none
    | .both => if v < e.low then .failLow else if v > e.high then .failHigh else if lo ≤ v ∧ v ≤ hi then .pass else .marginal
    | .low => if v < e.low then .failLow else if lo ≤ v then .pass else .marginal
    | .high => if v > e.high then .failHigh else if v ≤ hi then .pass else .marginal

/-- A PASS is lowered to MARGINAL on a short or disturbed measurement (spec R116). -/
def degrade (short disturbed : Bool) (v : Verdict) : Verdict := if v = .pass ∧ (short ∨ disturbed) then .marginal else v

/-- The answer of the judgement unit (spec R106). -/
structure Judgement where
  verdict : Verdict
  value : Option Int
  mean : Option Int
  overrange : Bool
  sat : Bool
deriving DecidableEq, Repr

/-- One judgement: from its samples, the captured calibration and limit, and the SHORT and DISTURBED flags (spec R106, R113, R116). -/
def judge (samples : List Sample) (cal : Calibration) (limit : Option LimitEntry) (short disturbed : Bool) : Judgement :=
  match samples with
  | [] => { verdict := .noData, value := none, mean := none, overrange := false, sat := false }
  | _ :: _ =>
    let m := rawMean cal samples
    let u := scaled cal m
    let overrange := samples.any Sample.overrange
    let sat := saturates u
    { verdict := if overrange || sat then .failRange else degrade short disturbed (limitVerdict limit (clamp u))
      value := some (clamp u), mean := some m, overrange := overrange, sat := sat }

/-- The rank of a verdict (spec TABLE 4-4). -/
def Verdict.rank : Verdict → Nat
  | .none => 0
  | .pass => 1
  | .marginal => 2
  | .failLow => 3
  | .failHigh => 3
  | .failRange => 3
  | .noData => 3

end Sys2Proof.Machine
end

