-- ==== Sys2Proof/Machine/Steps.lean ====
section
/-! DEFINITION. The step executor and the site unit's part in it: the phases of a step, its records, pausing and the run's end
(spec chapter 5 and sections 4.5, 4.6). -/

namespace Sys2Proof.Machine

/-! ### Entering phases -/

/-- The context of a step at its LOAD (spec R81 a and b). -/
def freshContext (index : StepId) (entry : StepEntry) : StepContext :=
  { index := index, entry := entry, phase := .load, cause := .ok, tag := none, attach := none, cal := none, samples := [],
    short := false, extra := false, disturbed := false, limit := none, placed := 0, anyFail := false, settleTimer := none,
    collectTimer := none }

/-- The LOAD phase begins: the entry is copied, and the current step is set (spec R81). -/
def startLoad (i : Site) (index : StepId) (s : State) : State :=
  s.onRun i fun r => { r with step := index, ctx := some (freshContext index s.tables.steps[index]) }

/-- A step enters JUDGE and captures its limit; its timers have stopped (spec R92, R104). -/
def enterJudge (i : Site) (s : State) : State :=
  s.onCtx i fun c =>
    { c with phase := .judge, limit := c.entry.limit.map fun l => s.tables.limits[l], settleTimer := none, collectTimer := none }

/-- A step fails: the cause is written, and it passes to JUDGE (spec R80 d). -/
def failStep (i : Site) (cause : Cause) (s : State) : State := enterJudge i (s.onCtx i fun c => { c with cause := cause })

/-- The settle time of a step in µs (spec R84). -/
def StepEntry.settleTime (e : StepEntry) : Nat := if e.instrument = none then max e.settle Config.bareSettle else e.settle

/-- A step enters SETTLE, and with no time to settle TRIGGER at once (spec R84). -/
def enterSettle (i : Site) (s : State) : State :=
  s.onCtx i fun c =>
    if c.entry.settleTime = 0 then { c with phase := .trigger, settleTimer := none }
    else { c with phase := .settle, settleTimer := some c.entry.settleTime }

/-! ### Records (spec R93 to R96, R70) -/

/-- How many records the step makes (spec R92). -/
def StepContext.total (c : StepContext) : Nat :=
  if c.cause ≠ .ok then 1
  else match c.entry.mode with
    | .average => 1
    | .series => c.samples.length

/-- The samples of the step's next record (spec R93, R96). -/
def StepContext.nextSamples (c : StepContext) : List Sample :=
  if c.cause ≠ .ok then []
  else match c.entry.mode with
    | .average => c.samples
    | .series => (c.samples.drop c.placed).take 1

/-- The calibration a judgement uses; a record made before any trigger uses none of it. -/
def StepContext.calibration (c : StepContext) : Calibration := c.cal.getD { offset := 0, gain := 0, exponent := 0 }

/-- The step's next record (spec R95, R96, TABLE 5-4). -/
def StepContext.record (c : StepContext) (run : Nat) (markAll : Bool) : StepRecord :=
  let j := judge c.nextSamples c.calibration c.limit c.short c.disturbed
  let failed := decide (c.cause ≠ .ok)
  { run := run
    step := c.index
    series := if failed then 0 else match c.entry.mode with
      | .average => 0
      | .series => c.placed
    verdict := j.verdict
    cause := c.cause
    value := j.value
    samplesUsed := c.nextSamples.length
    overrange := j.overrange
    sat := j.sat
    short := c.short && !failed
    disturbed := c.disturbed
    extra := c.extra && !failed
    exponent := c.calibration.exponent
    limit := c.entry.limit
    rawMean := if c.entry.raw then j.mean else none
    mark := c.entry.mark || markAll }

/-- A record counted in its site's run (spec R70, TABLE 4-4). -/
def countRecord (rec : StepRecord) (r : Run) : Run :=
  let k := rec.verdict.rank
  { r with
    pass := if k = 1 then satInc r.pass else r.pass
    marginal := if k = 2 then satInc r.marginal else r.marginal
    fail := if k = 3 then satInc r.fail else r.fail
    worst := if r.worst.rank < k then rec.verdict else r.worst
    firstFail := if k = 3 ∧ r.firstFail = none then some rec.step else r.firstFail }

/-- The summary of a run as it stands (spec TABLE 7-2). -/
def Run.summary (r : Run) (cause : EndCause) : Summary :=
  { run := r.number, cause := cause, pass := r.pass, marginal := r.marginal, fail := r.fail, worst := r.worst,
    firstFail := r.firstFail, stepsRun := r.stepsRun }

/-- Places the summary of a site's run in its summary slot (spec R120). -/
def placeSummary (i : Site) (cause : EndCause) (s : State) : State :=
  s.onResult i fun q => { q with summary := some (s.runs[i].summary cause) }

/-- Makes, places and counts the step's next record (spec R94 a). -/
def placeRecord (i : Site) (c : StepContext) (s : State) : State :=
  let rec' := c.record s.runs[i].number s.tables.sites[i].markAll
  let s := s.onResult i fun q => { q with records := q.records ++ [rec'] }
  s.onRun i fun r =>
    countRecord rec' { r with ctx := some { c with placed := c.placed + 1, anyFail := c.anyFail || decide (rec'.verdict.rank = 3) } }

/-! ### The end of a step -/

/-- A run ends normally (spec R69). -/
def endRun (i : Site) (s : State) : State :=
  (placeSummary i .ended (releaseAny i s)).onRun i fun r => { r with state := .idle, ctx := none }

/-- A site enters PAUSED (spec R67). -/
def pauseSite (i : Site) (reason : PauseReason) (s : State) : State :=
  raise (.sitePaused i s.runs[i].step reason)
    (releaseAny i (s.onRun i fun r => { r with state := .paused, pause := false, ctx := none }))

/-- The RELEASE phase and the decision that follows it (spec R97, R66). -/
def releasePhase (i : Site) (c : StepContext) (s : State) : State :=
  let s := match c.entry.instrument with
    | none => s
    | some l => if c.entry.keep then s else releaseIfHeld i l s
  let s := s.onRun i fun r => { r with stepsRun := satInc r.stepsRun }
  if s.runs[i].pause then pauseSite i .halt s
  else if c.entry.stopOnFail && c.anyFail then pauseSite i .stopOnFail s
  else match c.entry.next with
    | none => endRun i s
    | some n => startLoad i n s

/-! ### The phases that find nothing to wait for -/

/-- The LOAD phase ends: claims on other instruments are released (spec R81, R50). -/
def loadPhase (i : Site) (c : StepContext) (s : State) : State :=
  (releaseOther i c.entry.instrument s).onCtx i fun c => { c with phase := .claim }

/-- The CLAIM phase (spec R80 b, R82). -/
def claimPhase (i : Site) (c : StepContext) (s : State) : State :=
  match c.entry.instrument with
  | none => s.onCtx i fun c => { c with phase := .apply }
  | some l =>
    match claimAnswer l i s with
    | .granted => (grant l i s).onCtx i fun c => { c with phase := .apply }
    | .waiting => joinWaits l i s
    | .failed cause => failStep i cause s

/-- Puts a commit at the tail of the queue (spec R23). -/
def enqueue (c : Commit) (s : State) : State := s.onEngine fun e => { e with queue := e.queue ++ [c] }

/-- The commit of a site's own place, with the site's hold limit (spec R24). -/
def siteCommit (i : Site) (w : Work) (s : State) : Commit :=
  { place := .site i, work := w, holdLimit := s.tables.sites[i].holdLimit, remaining := s.tables.sites[i].holdLimit * Config.ms }

/-- The APPLY phase: the commit enters, or there is nothing to apply (spec R83, R24). -/
def applyPhase (i : Site) (c : StepContext) (s : State) : State :=
  match c.entry.patch with
  | none => enterSettle i s
  | some p => enqueue (siteCommit i (.step p) s) s

/-- A step triggers its instrument on an UP lane (spec R86, R91 a). -/
def trigger (i : Site) (c : StepContext) (l : LaneId) (s : State) : State :=
  let ch := s.tables.channels[channelId l c.entry.channel]
  let seq := (s.runs[i].seq + 1) % 4096
  let tag := partTag i seq
  let frame := toInstrument s.tables.instruments[l].node Kind.trg tag
    ([BitVec.ofNat 8 c.entry.channel, byteOf (c.entry.sampleCode + 1)] ++ bytes2 c.entry.setup)
  let s := s.onRun i fun r =>
    { r with
      seq := seq
      ctx := r.ctx.map fun c =>
        { c with
          cal := some ch.cal, attach := ch.attach, tag := some tag, phase := .collect
          disturbed := c.disturbed || ch.attach.any fun b => s.engine.flags.getLsbD b
          collectTimer := some (c.entry.collect * Config.ms) } }
  queuePart l frame s

/-- The TRIGGER phase (spec R85). -/
def triggerPhase (i : Site) (c : StepContext) (s : State) : State :=
  match c.entry.instrument with
  | none => s.onCtx i fun c => { c with phase := .release }
  | some l => if s.lanes[l].state ≠ .up then failStep i .lane s else trigger i c l s

/-- One move of the JUDGE phase: a record, or the way to RELEASE (spec R94). -/
def judgePhase (i : Site) (c : StepContext) (s : State) : State :=
  if c.placed < c.total then placeRecord i c s else s.onCtx i fun c => { c with phase := .release }

/-- Whether a STEP commit of a site is queued or in flight (spec R83). -/
def State.applying (s : State) (i : Site) : Bool :=
  s.engine.queue.any (fun c => decide (c.place = .site i)) ||
    s.engine.flight.any fun t => decide (t.kind = .step (some i))

/-- Whether a running step has something it can do now (spec R80 a). -/
def siteReady (s : State) (i : Site) : Bool :=
  match s.runs[i].ctx with
  | none => false
  | some c =>
    decide (s.runs[i].state = .running) &&
      match c.phase with
      | .load => true
      | .claim =>
        match c.entry.instrument with
        | none => true
        | some l => !s.claims.records[l].waits.contains i
      | .apply => c.entry.patch.isNone || !s.applying i
      | .settle => false
      | .trigger => true
      | .collect => false
      | .judge => decide (c.total ≤ c.placed) || decide (s.results[i].records.length < Config.stepPlaces)
      | .release => true

/-- One move of a site's step. -/
def siteAct (i : Site) (s : State) : State :=
  match s.runs[i].ctx with
  | none => s
  | some c =>
    match c.phase with
    | .load => loadPhase i c s
    | .claim => claimPhase i c s
    | .apply => applyPhase i c s
    | .settle => s
    | .trigger => triggerPhase i c s
    | .collect => s
    | .judge => judgePhase i c s
    | .release => releasePhase i c s

/-! ### Collecting -/

/-- Samples attributed to a site's step (spec R87). -/
def appendSamples (i : Site) (samples : List Sample) (s : State) : State :=
  match s.runs[i].ctx with
  | none => s
  | some c =>
    let n := c.entry.sampleCode + 1
    let room := n - c.samples.length
    let s := s.onCtx i fun c =>
      { c with samples := c.samples ++ samples.take room, extra := c.extra || decide (room < samples.length) }
    if n ≤ c.samples.length + samples.length then enterJudge i s else s

/-- The CAN frame that withdraws a step's trigger (spec R88, R72 d). -/
def sendCancel (c : StepContext) (s : State) : State :=
  match c.entry.instrument, c.tag with
  | some l, some tag =>
    queuePart l (toInstrument s.tables.instruments[l].node Kind.can tag [BitVec.ofNat 8 c.entry.channel]) s
  | _, _ => s

/-- The collect timer of a step in COLLECT expires (spec R88). -/
def collectExpired (i : Site) (c : StepContext) (s : State) : State :=
  let s := sendCancel c s
  if c.samples = [] then failStep i .collectTimeout s
  else enterJudge i (s.onCtx i fun c => { c with short := true })

/-- A lane's departure from UP, to the step executor: a step in COLLECT on that lane fails (spec R89). -/
def failCollecting (l : LaneId) (s : State) : State :=
  allSites.foldl
    (fun s i =>
      match s.runs[i].ctx with
      | none => s
      | some c => if c.phase = .collect ∧ c.entry.instrument = some l then failStep i .lane s else s) s

end Sys2Proof.Machine
end

