-- ==== Sys2Proof/Machine/Engine.lean ====
section
/-! DEFINITION. The transition engine: touched and held commits, the beginning of commits, the two phases, completion and the
whole-matrix openings (spec chapter 2). -/

namespace Sys2Proof.Machine

/-! ### Holds -/

/-- The site whose place a commit takes; none for a host place (spec R23). -/
def Commit.site (c : Commit) : Option Site :=
  match c.place with
  | .site i => some i
  | .host _ => none

/-- The crosspoints of the image on a site's pins (spec R19, R26 c). -/
def siteCrosspoints (s : State) (i : Site) : Crosspoints := s.matrix.image &&& onAnyBus (extent s.tables.sites[i])

/-- The touched buses of a commit (spec R26). -/
def touched (s : State) (c : Commit) : BusSet :=
  match c.work with
  | .step p => touchedByOps s.tables.patches[p]
  | .host _ _ ops => touchedByOps ops
  | .siteOpen =>
    match c.site with
    | some i => busesIn (siteCrosspoints s i)
    | none => 0

/-- The origin a guard is measured against: the site of a STEP commit, else none (spec R28). -/
def Commit.guardOrigin (c : Commit) : Option Site :=
  match c.work with
  | .step _ => c.site
  | .siteOpen => none
  | .host _ _ _ => none

/-- Whether a commit has the override flag (spec R28). -/
def Commit.override (c : Commit) : Bool :=
  match c.work with
  | .host _ o _ => o
  | _ => false

/-- Whether a commit is held: it has no override and touches a live or a guarded bus (spec R28). -/
def held (s : State) (c : Commit) : Bool :=
  !c.override && decide (touched s c &&& (s.live ||| s.guarded c.guardOrigin) ≠ 0)

/-! ### Completion -/

/-- The originator of a completed commit is told; n is the number of crosspoints changed (spec R36, R39, R184, R177, R41 a). -/
def tellCompletion (kind : FlightKind) (cut : Bool) (n : Nat) (s : State) : State :=
  match kind with
  | .step none => s
  | .step (some i) => enterSettle i s
  | .siteOpen _ => s
  | .host tag => if cut then answerPatch tag .cancelled [] s else answerPatch tag .ok (bytes2Of n) s
  | .opening .safeOpen => s.onProtection fun p => { p with openDone := true }
  | .opening .runOpen =>
    match s.trunk.resetRun with
    | none => s
    | some tag => respond tag 0x13 .ok [] (s.onTrunk fun t => { t with resetRun := none })

/-- The transition in flight completes: its flags clear, the engine is free, the originator is told (spec R36). -/
def completeFlight (t : Transition) (s : State) : State :=
  tellCompletion t.kind t.cut (count t.opening + count t.closing)
    (s.onEngine fun e => { e with flight := none, flags := 0 })

/-! ### The two phases -/

/-- The greatest of a relay time among the relay types of a set of buses; 0 for the empty set (spec R3, R34, R35). -/
def relayTime (t : Tables) (f : RelayType → Nat) (buses : BusSet) : Nat :=
  (allBuses.filter fun b : Bus => buses.getLsbD b).foldl (fun acc (b : Bus) => max acc (f t.relays[t.buses[b].relayType])) 0

/-- The image changes, and the whole of it is shifted into the driver chain and strobed (spec R2). -/
def setImage (x : Crosspoints) (s : State) : State := s.onMatrix fun m => { m with image := x }.load x

/-- The make phase starts; with an empty closing set the commit completes (spec R35). The closing set joins the image unchecked, as R35 says:
the checks of R15 and R16 were made when the commit began (log 29). -/
def startMake (t : Transition) (s : State) : State :=
  if t.closing = 0 then completeFlight t s
  else
    let s := setImage (s.matrix.image ||| t.closing) s
    let s := s.onEngine fun e =>
      { e with flight := some { t with phase := .making, remaining := relayTime s.tables RelayType.operate (busesIn t.closing) } }
    raiseFlags (busesIn t.closing) s

/-- The break phase starts; with an empty opening set the make phase starts at once (spec R34). -/
def startBreak (t : Transition) (s : State) : State :=
  if t.opening = 0 then startMake t s
  else
    let s := setImage (s.matrix.image &&& ~~~t.opening) s
    let s := s.onEngine fun e =>
      { e with flight := some { t with phase := .breaking, remaining := relayTime s.tables RelayType.release (busesIn t.opening) } }
    raiseFlags (busesIn t.opening) s

/-- A commit with its diff: complete at once when the diff is empty, else in flight from its break phase (spec R33 b and c). -/
def launch (kind : FlightKind) (opening closing : Crosspoints) (s : State) : State :=
  if opening = 0 ∧ closing = 0 then tellCompletion kind false 0 s
  else startBreak { kind := kind, opening := opening, closing := closing, phase := .breaking, remaining := 0, cut := false } s

/-- The diff of a finished copy against the image is launched (spec R18). -/
def launchCopy (kind : FlightKind) (copy : Crosspoints) (s : State) : State :=
  launch kind (s.matrix.image &&& ~~~copy) (copy &&& ~~~s.matrix.image) s

/-- The status of a refused host patch (spec R17, R171). -/
def refusalStatus : Cause → Status
  | .exclusion => .exclusion
  | _ => .busForeign

/-- A commit that has left the queue begins (spec R33, R17). -/
def beginCommit (c : Commit) (s : State) : State :=
  match c.work, c.site with
  | .step p, some i =>
    match evaluateStep s.tables i p s.matrix.image with
    | .error cause => failStep i cause s
    | .ok copy => launchCopy (.step (some i)) copy s
  | .step _, none => s
  | .siteOpen, some i => launch (.siteOpen i) (siteCrosspoints s i) 0 s
  | .siteOpen, none => s
  | .host tag _ ops, _ =>
    match evaluateHost s.tables ops s.matrix.image with
    | .error cause => answerPatch tag (refusalStatus cause) [] s
    | .ok copy => launchCopy (.host tag) copy s

/-! ### The engine's choice -/

/-- The oldest commit of a queue that is not held, and the queue without it (spec R29). -/
def takeUnheld (s : State) : List Commit → Option (Commit × List Commit)
  | [] => none
  | c :: rest =>
    if held s c then (takeUnheld s rest).map fun r => (r.1, c :: r.2)
    else some (c, rest)

/-- Whether the engine can begin something: no transition is in flight, and an opening is pending or a commit is not held (spec R29,
R40). -/
def engineReady (s : State) : Bool :=
  s.engine.flight.isNone && (!s.engine.openings.isEmpty || s.engine.queue.any fun c => !held s c)

/-- The free engine begins the oldest pending opening, else the oldest commit that is not held (spec R29, R40). -/
def engineAct (s : State) : State :=
  match s.engine.openings with
  | k :: rest => launch (.opening k) s.matrix.image 0 (s.onEngine fun e => { e with openings := rest })
  | [] =>
    match takeUnheld s s.engine.queue with
    | none => s
    | some (c, rest) => beginCommit c (s.onEngine fun e => { e with queue := rest })

/-- Whether the hold timer of the commit that the engine could begin now runs out at this same instant (spec R30 c). -/
def lapseReady (s : State) : Bool :=
  s.engine.flight.isNone && s.engine.openings.isEmpty
    && (takeUnheld s s.engine.queue).any fun r => decide (r.1.remaining = 0)

/-- A whole-matrix opening is required; a kind already pending adds nothing (spec R40). -/
def requireOpening (k : OpenKind) (s : State) : State :=
  if s.engine.openings.contains k then s else s.onEngine fun e => { e with openings := e.openings ++ [k] }

/-! ### Leaving the queue without beginning -/

/-- A commit that has left the queue by its hold timer: its originator is told (spec R31, R39). -/
def expireCommit (c : Commit) (s : State) : State :=
  match c.work, c.site with
  | .step _, some i => failStep i .holdTimeout s
  | .siteOpen, some i => raise (.openExpired i) s
  | .host tag _ _, _ => answerPatch tag .holdTimeout [] s
  | _, none => s

/-- The expiry is taken first: the commit that the engine could begin leaves the queue by its hold timer (spec R30 c, R31). -/
def lapseAct (s : State) : State :=
  match takeUnheld s s.engine.queue with
  | none => s
  | some (c, rest) => expireCommit c (s.onEngine fun e => { e with queue := rest })

/-- The first commit at a place, and the queue without it. -/
def takePlace (p : Place) : List Commit → Option (Commit × List Commit)
  | [] => none
  | c :: rest => if c.place = p then some (c, rest) else (takePlace p rest).map fun r => (r.1, c :: r.2)

/-- Every queued commit is removed; the removed HOST commits are answered CANCELLED, in an order the spec leaves open (spec R32 b
and c; log 5). -/
def removeAllCommits (s : State) : State :=
  let tags := s.engine.queue.filterMap fun c => match c.work with
    | .host tag _ _ => some tag
    | _ => none
  let o := freeOrder tags.length s.freeCount tags
  o.1.foldl (fun s tag => answerPatch tag .cancelled [] s) { s.onEngine (fun e => { e with queue := [] }) with freeCount := o.2 }

/-- A site's STEP commit goes: queued, it leaves the queue; in flight, it loses its origin (spec R32 a, R36 b, R72 b). -/
def dropStepCommit (i : Site) (s : State) : State :=
  s.onEngine fun e =>
    { e with
      queue := e.queue.filter fun c => !(decide (c.place = .site i) && match c.work with
        | .step _ => true
        | _ => false)
      flight := e.flight.map fun t => if t.kind = .step (some i) then { t with kind := .step none } else t }

/-- SAFE entry and the transition in flight: in its break phase its make phase is dropped; a whole-matrix opening has none
(spec R41). -/
def cutFlight (s : State) : State :=
  s.onEngine fun e =>
    { e with
      flight := e.flight.map fun t =>
        match t.phase, t.kind with
        | .making, _ => t
        | .breaking, .opening _ => t
        | .breaking, _ => { t with cut := true } }

/-- The break phase ends: the make phase starts, unless SAFE entry cut it (spec R35, R41 a). -/
def endBreak (t : Transition) (s : State) : State := if t.cut then completeFlight t s else startMake t s

/-- Whether a SITE-OPEN of a site is queued or in flight (spec R63 d). -/
def State.siteOpening (s : State) (i : Site) : Bool :=
  s.engine.queue.any (fun c => decide (c.place = .site i ∧ c.work = .siteOpen)) ||
    s.engine.flight.any fun t => decide (t.kind = .siteOpen i)

end Sys2Proof.Machine
end

