-- ==== Sys2Proof/Machine/Lanes.lean ====
section
/-! DEFINITION. The lane units: the activation state machine, and what entering and leaving UP does (spec chapter 8). -/

namespace Sys2Proof.Machine

/-- The line condition that a lane unit signals toward its card, from the event that enters the state until the event that leaves it
(spec R132, TABLE 8-2, R136, R137, R139, R141 to R144). -/
def LaneState.line : LaneState → LineCondition
  | .off => .quiet
  | .waking => .wake
  | .aligning => .stream
  | .up => .stream
  | .lost => .stream
  | .retryWait => .quiet
  | .faulted => .quiet
  | .draining => .quiet
  | .loop => .quiet

/-- The line condition that the part signals on a lane (spec R132). -/
def State.line (s : State) (l : LaneId) : LineCondition := s.lanes[l].state.line

/-- The event of a lane's entry to its present state (spec R147). -/
def laneEvent (s : State) (l : LaneId) : Event := .lane l s.lanes[l].state s.lanes[l].attempts

/-- Entry to ALIGNING: the lane signals STREAM (spec R137, TABLE 8-2). -/
def enterAligning (l : LaneId) (s : State) : State :=
  s.onLane l fun x => { x with state := .aligning, goodRun := 0, timer := some Config.alignWindow }

/-- Entry to WAKING with the given attempts: the lane signals WAKE (TABLE 8-2). A card that does not hold QUIET takes the lane on to
ALIGNING (spec R136). -/
def enterWaking (l : LaneId) (attempts : Nat) (s : State) : State :=
  let s := s.onLane l fun x => { x with state := .waking, attempts := attempts, timer := some Config.wakeWindow }
  if s.lanes[l].card = .quiet then s else enterAligning l s

/-- Entry to UP (spec R146). -/
def enterUp (l : LaneId) (s : State) : State :=
  let s := s.onLane l fun x => { x with state := .up, timer := none, badRun := 0 }
  raise (laneEvent s l) s

/-- Entry to RETRY_WAIT with the given attempts: the lane signals QUIET (spec R142, TABLE 8-2). A frame that is still on the line from
LOST is cut short there (the model's choice, log 25). -/
def enterRetryWait (l : LaneId) (attempts : Nat) (s : State) : State :=
  s.onLane l fun x => { x with state := .retryWait, attempts := attempts, timer := some Config.retryTime, sending := none }

/-- A failed attempt: RETRY_WAIT, or FAULTED with its event when the attempts have reached 8; both signal QUIET
(spec R138, R139, TABLE 8-2). -/
def failAttempt (l : LaneId) (s : State) : State :=
  let n := s.lanes[l].attempts + 1
  if Config.maxAttempts ≤ n then
    let s := s.onLane l fun x => { x with state := .faulted, attempts := n, timer := none, sending := none }
    raise (laneEvent s l) s
  else enterRetryWait l n s

/-- Sets the output states of a lane's channels. -/
def setOutputs (l : LaneId) (f : Fin 8 → Output → Output) (s : State) : State :=
  s.onTables fun t =>
    { t with
      channels := (List.finRange 8).foldl
        (fun cs (c : Fin 8) => cs.set (channelId l c) { cs[channelId l c] with output := f c cs[channelId l c].output }) t.channels }

/-- The departure of a lane from UP, when its new state has been set: its outputs are UNKNOWN, its transmit queue is emptied with the
host frames bounced, and a collecting step fails (spec R145 a to c). -/
def leaveUp (l : LaneId) (s : State) : State :=
  let s := raiseHot s (setOutputs l (fun _ _ => .unknown) s)
  let frames := s.lanes[l].hostFrames
  let s := s.onLane l fun x => { x with partFrames := [], hostFrames := [] }
  failCollecting l (frames.foldl (fun s f => bounce .laneDown f s) s)

/-- The trigger tag and the channel of the step whose COLLECT the lane's departure from UP ends, if it ends one: what R160 would attribute a
reading by (spec R89, R90 b, R160). -/
def endedStep (s : State) (l : LaneId) : Option (Tag × Fin 8) :=
  match s.claims.records[l].holder with
  | none => none
  | some i =>
    match s.runs[i].ctx with
    | none => none
    | some c =>
      if s.runs[i].state = .running ∧ c.phase = .collect ∧ c.entry.instrument = some l then
        some (partTag i s.runs[i].seq, c.entry.channel)
      else none

/-- Entry to LOST from UP; the lane keeps signalling STREAM, and the frame being sent is sent whole
(spec R141, R145). A reading can still meet the departure that ended the given step (log 30). -/
def enterLost (l : LaneId) (ended : Option (Tag × Fin 8)) (s : State) : State :=
  let s := leaveUp l (s.onLane l fun x =>
    { x with state := .lost, goodRun := 0, timer := some Config.lostWindow, leftStep := ended })
  raiseDue (laneEvent s l) s

/-- Entry to DRAINING: the lane signals QUIET; from UP the effects of leaving UP take place, and the frame being sent is cut short
(spec R143, R145 b). A frame that is still on the line from LOST is cut short too (the model's choice, log 25). A reading can still meet the
departure (log 30). -/
def enterDraining (l : LaneId) (s : State) : State :=
  let wasUp := decide (s.lanes[l].state = .up)
  let ended := endedStep s l
  let s := s.onLane l fun x =>
    { x with state := .draining, timer := some Config.drainLimit, sending := none
             leftStep := if wasUp then ended else x.leftStep
             quiet := if x.card = .quiet then some Config.quietTime else none }
  if wasUp then leaveUp l s else s

/-- Entry to LOOP: the lane signals QUIET toward the card (spec R144, TABLE 8-2). -/
def enterLoop (l : LaneId) (s : State) : State :=
  s.onLane l fun x => { x with state := .loop, goodRun := 0, loopStatus := .testing, timer := some Config.loopWindow }

/-- What a lane in OFF does on its standing settings (spec R135 a to c, TABLE 8-3). -/
def actOnSettings (l : LaneId) (s : State) : State :=
  if s.lanes[l].loopback then enterLoop l s
  else if s.lanes[l].demand then enterWaking l 0 s
  else s

/-- Whether a lane that enters OFF calls: its card is answering, and the lane stays in OFF, or calls in passing (spec R135; log 10). -/
def callsAtOff (x : Lane) : Bool :=
  decide (x.card = .answer) && ((!x.loopback && !x.demand) || Config.callsInPassing)

/-- Entry to OFF, with the events of the entry; then the lane acts on its settings. A test still running has failed
(spec R135, R144). -/
def enterOff (l : LaneId) (events : List Event) (s : State) : State :=
  let calls := callsAtOff s.lanes[l]
  let s := s.onLane l fun x =>
    { x with state := .off, timer := none, quiet := none, goodRun := 0, badRun := 0, called := calls, sending := none
             loopStatus := if x.loopStatus = .testing then .bad else x.loopStatus }
  actOnSettings l (raiseFree (events ++ if calls then [.laneCall l] else []) s)

/-- DRAINING ends: the lane enters OFF with its event (spec R143, R147). -/
def endDraining (l : LaneId) (s : State) : State := enterOff l [.lane l .off s.lanes[l].attempts] s

/-- SET LANES for one named lane: both settings are written, then the lane acts by its state (spec R134, TABLE 8-3). -/
def setLane (l : LaneId) (demand loopback : Bool) (s : State) : State :=
  let s := s.onLane l fun x => { x with demand := demand, loopback := loopback }
  match s.lanes[l].state with
  | .off => actOnSettings l s
  | .waking => if demand then s else enterDraining l s
  | .aligning => if demand then s else enterDraining l s
  | .up => if demand then s else enterDraining l s
  | .lost => if demand then s else enterDraining l s
  | .retryWait => if demand then s else enterDraining l s
  | .faulted => if demand then enterWaking l 0 s else enterOff l [] s
  | .draining => s
  | .loop => if loopback then s else enterOff l [] s

/-- A change of the card's line condition (spec R135 to R143). A frame that begins after it no longer meets an earlier departure
(log 30). -/
def cardChanged (l : LaneId) (c : CardCondition) (s : State) : State :=
  let s := s.onLane l fun x => { x with card := c, leftStep := none }
  let x := s.lanes[l]
  match x.state with
  | .off => if c = .answer ∧ x.called = false then raise (.laneCall l) (s.onLane l fun x => { x with called := true }) else s
  | .waking => if c = .quiet then s else enterAligning l s
  | .aligning => if c = .stream then s else s.onLane l fun x => { x with goodRun := 0 }
  | .up => if c = .stream then s else enterLost l (endedStep s l) s
  | .lost => if c = .stream then s else s.onLane l fun x => { x with goodRun := 0 }
  | .retryWait => s
  | .faulted => s
  | .draining => s.onLane l fun x => { x with quiet := if c = .quiet then some Config.quietTime else none }
  | .loop => s

/-- A frame counted toward the good run of ALIGNING or LOST: the fourth in a row brings the lane UP (spec R137, R141). -/
def countAligning (l : LaneId) (good : Bool) (s : State) : State :=
  if good then
    let s := s.onLane l fun x => { x with goodRun := x.goodRun + 1 }
    if 4 ≤ s.lanes[l].goodRun then enterUp l s else s
  else s.onLane l fun x => { x with goodRun := 0 }

/-- A frame counted through the loop: the fourth in a row within the window makes the loop status GOOD (spec R144). -/
def countLoop (l : LaneId) (good : Bool) (s : State) : State :=
  s.onLane l fun x =>
    let run := if good then min (x.goodRun + 1) 4 else 0
    if x.loopStatus = .testing ∧ 4 ≤ run then { x with goodRun := run, loopStatus := .good, timer := none }
    else { x with goodRun := run }

/-- A bad frame in UP: the third in a row loses the lane (spec R140). A later frame from the same card comes after that departure, and does
not meet it (log 30). -/
def countBadUp (l : LaneId) (s : State) : State :=
  let s := s.onLane l fun x => { x with badRun := x.badRun + 1 }
  if 3 ≤ s.lanes[l].badRun then enterLost l none s else s

/-- The IDLE frame of a lane (spec R132). -/
def idleFrame (s : State) (l : LaneId) : Frame := toInstrument s.tables.instruments[l].node Kind.idle 0 []

/-- The lane transmitter is free: in UP the head of the transmit queue is sent, part frames first, or an IDLE frame. Elsewhere a line that
signals STREAM carries IDLE frames, as the internal loop does in LOOP; the other line conditions carry no frame (spec R132, TABLE 8-2). -/
def sendNext (l : LaneId) (s : State) : State :=
  let x := s.lanes[l]
  let idle := some (idleFrame s l)
  if x.state = .up then
    s.onLane l fun x =>
      match x.partFrames, x.hostFrames with
      | f :: rest, _ => { x with partFrames := rest, sending := some f }
      | [], f :: rest => { x with hostFrames := rest, sending := some f }
      | [], [] => { x with sending := idle }
  else if x.state.line = .stream ∨ x.state = .loop then s.onLane l fun x => { x with sending := idle }
  else s

end Sys2Proof.Machine
end

