-- ==== Sys2Proof/Machine/Operands.lean ====
section
/-! DEFINITION. The operand forms of the management requests: their layouts as bytes, the reading of them, and the reading of table
entries with their range checks (spec section 10.7, R169, R180). -/

namespace Sys2Proof.Machine

/-- A management request as its layout gives it, before any range check (spec TABLE 10-2, TABLE 10-13). -/
inductive Request where
  | nop
  | readStatus (clear : Byte)
  | writeRelayTypes (entries : List RelayTypeRaw)
  | writeBuses (entries : List BusRaw)
  | writeSites (entries : List SiteRaw)
  | writeInstruments (entries : List InstrumentRaw)
  | writeChannels (entries : List ChannelRaw)
  | writeLimits (entries : List LimitRaw)
  | writePatches (entries : List PatchRaw)
  | writeSteps (entries : List StepRaw)
  /-- WRITE TABLE naming table 9 or an id outside 1..9 (spec R170, TABLE 10-12). -/
  | writeNoTable (table : Byte)
  | readTable (table : Byte) (first : Half) (count : Byte)
  | setLanes (settings : List LaneSetRaw)
  | patch (override : Byte) (holdLimit : Half) (ops : List OpRaw)
  | readMatrix (group : Byte)
  | verifyMatrix (group : Byte) (expected care : BusSet)
  | start (sites : SiteMask)
  | halt (sites : SiteMask)
  | resume (sites : SiteMask)
  | abort (sites : SiteMask) (panel : Byte)
  | credit (site amount : Byte)
  | readSite (sites : SiteMask)
  | setTaps (settings : List TapRaw)
  | takeTaps
  | setSilence (setting : Byte)
  | enterSafe
  | clearSafe
  | resetRun
  | resetFull
deriving DecidableEq, Repr

/-- The code of a request (spec TABLE 10-2). -/
def Request.code : Request → Byte
  | .nop => 0x00
  | .readStatus _ => 0x01
  | .writeRelayTypes _ => 0x02
  | .writeBuses _ => 0x02
  | .writeSites _ => 0x02
  | .writeInstruments _ => 0x02
  | .writeChannels _ => 0x02
  | .writeLimits _ => 0x02
  | .writePatches _ => 0x02
  | .writeSteps _ => 0x02
  | .writeNoTable _ => 0x02
  | .readTable _ _ _ => 0x03
  | .setLanes _ => 0x04
  | .patch _ _ _ => 0x05
  | .readMatrix _ => 0x06
  | .verifyMatrix _ _ _ => 0x07
  | .start _ => 0x08
  | .halt _ => 0x09
  | .resume _ => 0x0A
  | .abort _ _ => 0x0B
  | .credit _ _ => 0x0C
  | .readSite _ => 0x0D
  | .setTaps _ => 0x0E
  | .takeTaps => 0x0F
  | .setSilence _ => 0x10
  | .enterSafe => 0x11
  | .clearSafe => 0x12
  | .resetRun => 0x13
  | .resetFull => 0x14

/-! ### Layouts of entries (spec TABLE 10-11, TABLE 10-12) -/

def RelayTypeRaw.bytes (e : RelayTypeRaw) : List Byte := e.index :: (bytes2 e.operate ++ bytes2 e.release)

def RelayTypeRaw.parse : List Byte → Option (RelayTypeRaw × List Byte)
  | i :: o1 :: o0 :: r1 :: r0 :: rest => some ({ index := i, operate := word2 o1 o0, release := word2 r1 r0 }, rest)
  | _ => none

def BusRaw.bytes (e : BusRaw) : List Byte := [e.index, e.owner, e.relayType, e.exclusion]

def BusRaw.parse : List Byte → Option (BusRaw × List Byte)
  | i :: o :: t :: x :: rest => some ({ index := i, owner := o, relayType := t, exclusion := x }, rest)
  | _ => none

def SiteRaw.bytes (e : SiteRaw) : List Byte :=
  [e.index, e.firstGroup, e.groupCount, e.skew, e.panel] ++ bytes2 e.startStep ++ bytes2 e.claimWait ++ bytes2 e.holdLimit
    ++ [e.batch, e.options]

def SiteRaw.parse : List Byte → Option (SiteRaw × List Byte)
  | i :: f :: c :: k :: p :: s1 :: s0 :: w1 :: w0 :: h1 :: h0 :: b :: o :: rest =>
    some ({ index := i, firstGroup := f, groupCount := c, skew := k, panel := p, startStep := word2 s1 s0, claimWait := word2 w1 w0,
            holdLimit := word2 h1 h0, batch := b, options := o }, rest)
  | _ => none

def InstrumentRaw.bytes (e : InstrumentRaw) : List Byte := [e.lane, e.node, e.policy, e.channels]

def InstrumentRaw.parse : List Byte → Option (InstrumentRaw × List Byte)
  | l :: n :: p :: c :: rest => some ({ lane := l, node := n, policy := p, channels := c }, rest)
  | _ => none

def ChannelRaw.bytes (e : ChannelRaw) : List Byte :=
  [e.index, e.attach] ++ bytes3 e.offset ++ bytes2 e.gain ++ [e.exponent]

def ChannelRaw.parse : List Byte → Option (ChannelRaw × List Byte)
  | i :: a :: o2 :: o1 :: o0 :: g1 :: g0 :: x :: rest =>
    some ({ index := i, attach := a, offset := word3 o2 o1 o0, gain := word2 g1 g0, exponent := x }, rest)
  | _ => none

def LimitRaw.bytes (e : LimitRaw) : List Byte :=
  bytes2 e.index ++ bytes3 e.low ++ bytes3 e.high ++ bytes2 e.guard ++ [e.mode]

def LimitRaw.parse : List Byte → Option (LimitRaw × List Byte)
  | i1 :: i0 :: l2 :: l1 :: l0 :: h2 :: h1 :: h0 :: g1 :: g0 :: m :: rest =>
    some ({ index := word2 i1 i0, low := word3 l2 l1 l0, high := word3 h2 h1 h0, guard := word2 g1 g0, mode := m }, rest)
  | _ => none

def OpRaw.bytes (e : OpRaw) : List Byte :=
  [e.group, e.rep, e.kind, e.enable, e.force, e.forceClose] ++ bytes4 e.pattern ++ bytes4 e.mask

def OpRaw.parse : List Byte → Option (OpRaw × List Byte)
  | g :: r :: k :: e :: f :: c :: p3 :: p2 :: p1 :: p0 :: m3 :: m2 :: m1 :: m0 :: rest =>
    some ({ group := g, rep := r, kind := k, enable := e, force := f, forceClose := c, pattern := word4 p3 p2 p1 p0,
            mask := word4 m3 m2 m1 m0 }, rest)
  | _ => none

def StepRaw.bytes (e : StepRaw) : List Byte :=
  bytes2 e.index ++ bytes2 e.patch ++ [e.instrument, e.channel, e.mode, e.sampleCode] ++ bytes2 e.setup ++ bytes2 e.limit
    ++ bytes2 e.settle ++ bytes2 e.collect ++ [e.flags] ++ bytes2 e.next

def StepRaw.parse : List Byte → Option (StepRaw × List Byte)
  | i1 :: i0 :: p1 :: p0 :: n :: c :: m :: k :: u1 :: u0 :: l1 :: l0 :: s1 :: s0 :: t1 :: t0 :: f :: x1 :: x0 :: rest =>
    some ({ index := word2 i1 i0, patch := word2 p1 p0, instrument := n, channel := c, mode := m, sampleCode := k,
            setup := word2 u1 u0, limit := word2 l1 l0, settle := word2 s1 s0, collect := word2 t1 t0, flags := f,
            next := word2 x1 x0 }, rest)
  | _ => none

def TapRaw.bytes (e : TapRaw) : List Byte := [e.index, e.enabled, e.node, e.channel, e.notify]

def TapRaw.parse : List Byte → Option (TapRaw × List Byte)
  | i :: e :: n :: c :: y :: rest => some ({ index := i, enabled := e, node := n, channel := c, notify := y }, rest)
  | _ => none

def LaneSetRaw.bytes (e : LaneSetRaw) : List Byte := [e.lane, e.demand, e.loopback]

def LaneSetRaw.parse : List Byte → Option (LaneSetRaw × List Byte)
  | l :: d :: b :: rest => some ({ lane := l, demand := d, loopback := b }, rest)
  | _ => none

/-- Reads n items one after the other. -/
def parseMany {α : Type} (p : List Byte → Option (α × List Byte)) : Nat → List Byte → Option (List α × List Byte)
  | 0, bs => some ([], bs)
  | n + 1, bs =>
    match p bs with
    | none => none
    | some (a, rest) =>
      match parseMany p n rest with
      | none => none
      | some (l, rest') => some (a :: l, rest')

/-- Reads n items that fill the bytes exactly; else the length is not what the count requires (spec R169 c). -/
def parseAll {α : Type} (p : List Byte → Option (α × List Byte)) (n : Byte) (bs : List Byte) : Option (List α) :=
  match parseMany p n.toNat bs with
  | some (l, []) => some l
  | _ => none

/-- The items of a list, each in its layout. -/
def bytesAll {α : Type} (f : α → List Byte) (l : List α) : List Byte := (l.map f).flatten

def PatchRaw.bytes (e : PatchRaw) : List Byte := e.index :: byteOf e.ops.length :: bytesAll OpRaw.bytes e.ops

def PatchRaw.parse : List Byte → Option (PatchRaw × List Byte)
  | i :: n :: rest =>
    match parseMany OpRaw.parse n.toNat rest with
    | none => none
    | some (ops, rest') => some ({ index := i, ops := ops }, rest')
  | _ => none

/-! ### Layouts of requests (spec TABLE 10-13) -/

/-- The payload of a request: its code and its arguments. -/
def Request.payload (r : Request) : List Byte :=
  r.code :: match r with
  | .nop => []
  | .readStatus c => [c]
  | .writeRelayTypes es => 1 :: byteOf es.length :: bytesAll RelayTypeRaw.bytes es
  | .writeBuses es => 2 :: byteOf es.length :: bytesAll BusRaw.bytes es
  | .writeSites es => 3 :: byteOf es.length :: bytesAll SiteRaw.bytes es
  | .writeInstruments es => 4 :: byteOf es.length :: bytesAll InstrumentRaw.bytes es
  | .writeChannels es => 5 :: byteOf es.length :: bytesAll ChannelRaw.bytes es
  | .writeLimits es => 6 :: byteOf es.length :: bytesAll LimitRaw.bytes es
  | .writePatches es => 7 :: byteOf es.length :: bytesAll PatchRaw.bytes es
  | .writeSteps es => 8 :: byteOf es.length :: bytesAll StepRaw.bytes es
  | .writeNoTable t => [t, 0]
  | .readTable t f c => t :: (bytes2 f ++ [c])
  | .setLanes es => byteOf es.length :: bytesAll LaneSetRaw.bytes es
  | .patch o h ops => o :: (bytes2 h ++ byteOf ops.length :: bytesAll OpRaw.bytes ops)
  | .readMatrix g => [g]
  | .verifyMatrix g e c => [g, e, c]
  | .start m => [m]
  | .halt m => [m]
  | .resume m => [m]
  | .abort m p => [m, p]
  | .credit s a => [s, a]
  | .readSite m => [m]
  | .setTaps es => byteOf es.length :: bytesAll TapRaw.bytes es
  | .takeTaps => []
  | .setSilence x => [x]
  | .enterSafe => []
  | .clearSafe => []
  | .resetRun => []
  | .resetFull => []

/-- The request of WRITE TABLE's arguments. An id outside 1..9 admits no length, so it is read whatever follows its count
(DEDUCED, log 16). -/
def readWriteTable : List Byte → Option Request
  | table :: n :: rest =>
    if table = 1 then (parseAll RelayTypeRaw.parse n rest).map .writeRelayTypes
    else if table = 2 then (parseAll BusRaw.parse n rest).map .writeBuses
    else if table = 3 then (parseAll SiteRaw.parse n rest).map .writeSites
    else if table = 4 then (parseAll InstrumentRaw.parse n rest).map .writeInstruments
    else if table = 5 then (parseAll ChannelRaw.parse n rest).map .writeChannels
    else if table = 6 then (parseAll LimitRaw.parse n rest).map .writeLimits
    else if table = 7 then (parseAll PatchRaw.parse n rest).map .writePatches
    else if table = 8 then (parseAll StepRaw.parse n rest).map .writeSteps
    else if table = 9 then (parseAll TapRaw.parse n rest).map fun _ => .writeNoTable table
    else some (.writeNoTable table)
  | _ => none

/-- Arguments of 0, 1, 2 or 3 bytes (spec TABLE 10-13). -/
def args0 (r : Request) : List Byte → Option Request
  | [] => some r
  | _ => none

def args1 (r : Byte → Request) : List Byte → Option Request
  | [a] => some (r a)
  | _ => none

def args2 (r : Byte → Byte → Request) : List Byte → Option Request
  | [a, b] => some (r a b)
  | _ => none

def args3 (r : Byte → Byte → Byte → Request) : List Byte → Option Request
  | [a, b, c] => some (r a b c)
  | _ => none

/-- The arguments of READ TABLE. -/
def readReadTable : List Byte → Option Request
  | [t, f1, f0, c] => some (.readTable t (word2 f1 f0) c)
  | _ => none

/-- The arguments of SET LANES. -/
def readSetLanes : List Byte → Option Request
  | n :: rest => (parseAll LaneSetRaw.parse n rest).map .setLanes
  | _ => none

/-- The arguments of PATCH. -/
def readPatch : List Byte → Option Request
  | o :: h1 :: h0 :: n :: rest => (parseAll OpRaw.parse n rest).map fun ops => .patch o (word2 h1 h0) ops
  | _ => none

/-- The arguments of SET TAPS. -/
def readSetTaps : List Byte → Option Request
  | n :: rest => (parseAll TapRaw.parse n rest).map .setTaps
  | _ => none

/-- The request a payload holds; none when its code is unknown or its length is not the one its code and counts require
(spec R169 a to c). -/
def readRequest : List Byte → Option Request
  | [] => none
  | code :: args =>
    match code.toNat with
    | 0x00 => args0 .nop args
    | 0x01 => args1 .readStatus args
    | 0x02 => readWriteTable args
    | 0x03 => readReadTable args
    | 0x04 => readSetLanes args
    | 0x05 => readPatch args
    | 0x06 => args1 .readMatrix args
    | 0x07 => args3 .verifyMatrix args
    | 0x08 => args1 .start args
    | 0x09 => args1 .halt args
    | 0x0A => args1 .resume args
    | 0x0B => args2 .abort args
    | 0x0C => args2 .credit args
    | 0x0D => args1 .readSite args
    | 0x0E => readSetTaps args
    | 0x0F => args0 .takeTaps args
    | 0x10 => args1 .setSilence args
    | 0x11 => args0 .enterSafe args
    | 0x12 => args0 .clearSafe args
    | 0x13 => args0 .resetRun args
    | 0x14 => args0 .resetFull args
    | _ => none

/-! ### Entries read with their range checks; none is BAD_VALUE -/

/-- An index below n, or none for the code that stands for none. -/
def optIndex (n none code : Nat) : Option (Option (Fin n)) :=
  if code = none then some Option.none else (toFin? n code).map some

/-- A flag byte, 0 or 1 (spec R180). -/
def readFlag (b : Byte) : Option Bool := if b = 0 then some false else if b = 1 then some true else none

/-- A relay-type entry (spec R3). -/
def RelayTypeRaw.read (e : RelayTypeRaw) : Option (Fin 4 × RelayType) := do
  let i ← toFin? 4 e.index.toNat
  if e.operate = 0 ∨ e.release = 0 then none
  else some (i, { operate := e.operate.toNat, release := e.release.toNat })

/-- A bus entry (spec R4). -/
def BusRaw.read (e : BusRaw) : Option (Bus × BusEntry) := do
  let i ← toFin? 8 e.index.toNat
  let o ← optIndex 8 0xFF e.owner.toNat
  let t ← toFin? 4 e.relayType.toNat
  if e.exclusion.getLsbD i then none else some (i, { owner := o, relayType := t, exclusion := e.exclusion })

/-- A site entry (spec R59 a). -/
def SiteRaw.read (e : SiteRaw) : Option (Site × SiteEntry) := do
  let i ← toFin? 8 e.index.toNat
  let p ← toFin? 8 e.panel.toNat
  let st ← toFin? 1024 e.startStep.toNat
  let f := e.firstGroup.toNat
  let c := e.groupCount.toNat
  if f ≤ 11 ∧ 1 ≤ c ∧ c ≤ 12 ∧ f + c ≤ 12 ∧ e.skew.toNat ≤ 31 ∧ e.claimWait ≠ 0 ∧ e.holdLimit ≠ 0 ∧ 1 ≤ e.batch.toNat
      ∧ e.batch.toNat ≤ 32 ∧ e.options &&& 0xFC = 0 then
    some (i, { firstGroup := f, groupCount := c, skew := e.skew.toNat, panel := p, startStep := st, claimWait := e.claimWait.toNat,
               holdLimit := e.holdLimit.toNat, batch := e.batch.toNat, markAll := e.options.getLsbD 0,
               openOnAbort := e.options.getLsbD 1 })
  else none

/-- An instrument entry (spec R150 a). -/
def InstrumentRaw.read (e : InstrumentRaw) : Option (LaneId × InstrumentEntry) := do
  let l ← toFin? 12 e.lane.toNat
  let p ← optIndex 8 0xFF e.policy.toNat
  if e.node.toNat ≤ 239 ∧ 1 ≤ e.channels.toNat ∧ e.channels.toNat ≤ 8 then
    some (l, { node := e.node, policy := p, channels := e.channels.toNat })
  else none

/-- A channel entry as written: attach bus and calibration (spec R100). -/
def ChannelRaw.read (e : ChannelRaw) : Option (ChannelId × Option Bus × Calibration) := do
  let i ← toFin? 96 e.index.toNat
  let a ← optIndex 8 0xFF e.attach.toNat
  if -15 ≤ e.exponent.toInt ∧ e.exponent.toInt ≤ 15 then
    some (i, a, { offset := e.offset.toInt, gain := e.gain.toNat, exponent := e.exponent.toInt })
  else none

/-- The mode of a limit entry (spec TABLE 10-12). -/
def readLimitMode (b : Byte) : Option LimitMode :=
  if b = 0 then some .both else if b = 1 then some .low else if b = 2 then some .high else if b = 3 then some .record else none

/-- A limit entry (spec R103 a). -/
def LimitRaw.read (e : LimitRaw) : Option (LimitId × LimitEntry) := do
  let i ← toFin? 512 e.index.toNat
  let m ← readLimitMode e.mode
  some (i, { low := e.low.toInt, high := e.high.toInt, guard := e.guard.toNat, mode := m })

/-- A combine kind (spec TABLE 10-11). -/
def readCombine (b : Byte) : Option Combine :=
  if b = 0 then some .set else if b = 1 then some .join else if b = 2 then some .cut else if b = 3 then some .flip else none

/-- A patch operation (spec R7). -/
def OpRaw.read (e : OpRaw) : Option PatchOp := do
  let k ← readCombine e.kind
  if e.group.toNat ≤ 11 ∧ e.rep.toNat ≤ 11 ∧ e.forceClose &&& ~~~e.force = 0 then
    some { group := e.group.toNat, rep := e.rep.toNat, kind := k, pattern := e.pattern, mask := e.mask, enable := e.enable,
           force := e.force, forceClose := e.forceClose }
  else none

/-- Reads every element, or none if one is refused. -/
def readAll {α β : Type} (f : α → Option β) : List α → Option (List β)
  | [] => some []
  | a :: l => match f a, readAll f l with
    | some b, some bs => some (b :: bs)
    | _, _ => none

/-- A patch entry: at most 8 operations, each in range (spec R7). -/
def PatchRaw.read (e : PatchRaw) : Option (PatchId × List PatchOp) := do
  let i ← toFin? 256 e.index.toNat
  let ops ← readAll OpRaw.read e.ops
  if e.ops.length ≤ 8 then some (i, ops) else none

/-- The operations of a host patch: as a patch entry's, and group plus repeat within 0..11 (spec R8). -/
def readHostOps (ops : List OpRaw) : Option (List PatchOp) := do
  let r ← readAll OpRaw.read ops
  if ops.length ≤ 8 ∧ (r.all fun op => decide (op.group + op.rep ≤ 11)) then some r else none

/-- A step entry (spec R78). -/
def StepRaw.read (e : StepRaw) : Option (StepId × StepEntry) := do
  let i ← toFin? 1024 e.index.toNat
  let p ← optIndex 256 0xFFFF e.patch.toNat
  let n ← optIndex 12 0xFF e.instrument.toNat
  let c ← toFin? 8 e.channel.toNat
  let l ← optIndex 512 0xFFFF e.limit.toNat
  let x ← optIndex 1024 0xFFFF e.next.toNat
  if e.mode.toNat ≤ 1 ∧ e.sampleCode.toNat ≤ 63 ∧ e.collect ≠ 0 ∧ e.flags &&& 0xF0 = 0 then
    some (i, { patch := p, instrument := n, channel := c, mode := if e.mode = 0 then .average else .series,
               sampleCode := e.sampleCode.toNat, setup := e.setup, limit := l, settle := e.settle.toNat, collect := e.collect.toNat,
               keep := e.flags.getLsbD 0, stopOnFail := e.flags.getLsbD 1, mark := e.flags.getLsbD 2, raw := e.flags.getLsbD 3,
               next := x })
  else none

/-- The settings of a tap (spec R164). -/
def TapRaw.read (e : TapRaw) : Option (TapId × Tap) := do
  let i ← toFin? 4 e.index.toNat
  let en ← readFlag e.enabled
  let c ← toFin? 8 e.channel.toNat
  let y ← readFlag e.notify
  if e.node.toNat ≤ 239 then some (i, { Tap.reset with enabled := en, node := e.node, channel := c, notify := y }) else none

/-- The settings of a lane: lane, demand, loopback (spec R134, R180). -/
def LaneSetRaw.read (e : LaneSetRaw) : Option (LaneId × Bool × Bool) := do
  let l ← toFin? 12 e.lane.toNat
  let d ← readFlag e.demand
  let b ← readFlag e.loopback
  some (l, d, b)

/-! ### Lane payloads (spec TABLE 10-6) -/

/-- The samples of an RDG payload. Bits of a sample's flags byte beside OVER's are not examined (DEDUCED, log 17). -/
def parseSample : List Byte → Option (Sample × List Byte)
  | f :: r2 :: r1 :: r0 :: rest => some ({ raw := (word3 r2 r1 r0).toInt, overrange := f.getLsbD 0 }, rest)
  | _ => none

/-- The channel and samples of a well-formed RDG payload (spec R160 f). -/
def readReading : List Byte → Option (Fin 8 × List Sample)
  | c :: m :: rest =>
    if 1 ≤ m.toNat ∧ m.toNat ≤ 16 then
      match toFin? 8 c.toNat, parseAll parseSample m rest with
      | some c, some samples => some (c, samples)
      | _, _ => none
    else none
  | _ => none

/-- One report of an STA payload (spec R153). -/
def parseReport : List Byte → Option ((Byte × Byte) × List Byte)
  | c :: st :: rest => some ((c, st), rest)
  | _ => none

/-- A channel report in range (spec R153). -/
def readReport (r : Byte × Byte) : Option (Fin 8 × Output) :=
  match toFin? 8 r.1.toNat, readFlag r.2 with
  | some c, some on => some (c, if on then .on else .off)
  | _, _ => none

/-- The reports of a well-formed STA payload (spec R153). -/
def readReports : List Byte → Option (List (Fin 8 × Output))
  | n :: rest =>
    if 1 ≤ n.toNat ∧ n.toNat ≤ 8 then
      match parseAll parseReport n rest with
      | some l => readAll readReport l
      | none => none
    else none
  | _ => none

end Sys2Proof.Machine
end

