-- ==== Sys2Proof/Machine/Traffic.lean ====
section
/-! DEFINITION. The trunk's receiving side and the lane traffic unit: forwarding of host commands, readings, status frames and taps
(spec chapter 9, R167, R168). -/

namespace Sys2Proof.Machine

/-! ### Host command frames -/

/-- The lane whose instrument has a node other than 0 (spec R155). -/
def laneOfNode (s : State) (node : Byte) : Option LaneId :=
  if node = 0 then none else allLanes.find? fun l => s.tables.instruments[l].node = node

/-- Puts a host frame at the tail of a lane's transmit queue. -/
def queueHost (l : LaneId) (f : Frame) (s : State) : State := s.onLane l fun x => { x with hostFrames := x.hostFrames ++ [f] }

/-- Routes a host CMD frame to its instrument's lane, or bounces it (spec R155, TABLE 9-2). -/
def routeCommand (f : Frame) (s : State) : State :=
  match laneOfNode s f.dest with
  | none => bounce .noRoute f s
  | some l =>
    if f.tag.msb then bounce .badTag f s
    else if s.lanes[l].state ≠ .up then bounce .laneDown f s
    else if s.claims.records[l].holder ≠ none ∧ f.force = false then bounce .held f s
    else if Config.lanePlaces ≤ s.lanes[l].queued then bounce .laneFull f s
    else queueHost l f s

/-- Copies a broadcast to every lane that can take it, without any bounce (spec R156). -/
def broadcast (f : Frame) (s : State) : State :=
  if f.tag.msb then s
  else
    allLanes.foldl
      (fun s l =>
        if s.tables.instruments[l].node ≠ 0 ∧ s.lanes[l].state = .up ∧ s.claims.records[l].holder = none
            ∧ s.lanes[l].queued < Config.lanePlaces then
          queueHost l f s
        else s) s

/-- Whether a frame is for the management unit (spec R168 a). -/
def Frame.forPart (f : Frame) : Bool := decide (f.dest = nodePart ∧ f.kind = Kind.mgt)

/-- Whether the head of the input buffer leaves without the management unit (spec R168 b and c). After the answer to RESET FULL frames
stay in the buffer, with which they are lost (spec R178). -/
def drainReady (s : State) : Bool :=
  match s.trunk.input with
  | [] => false
  | f :: _ => !s.trunk.closed && !f.forPart

/-- A head frame that is not for the management unit is routed, or discarded and counted (spec R168 b and c). -/
def drainAct (s : State) : State :=
  match s.trunk.input with
  | [] => s
  | f :: rest =>
    let s := s.onTrunk fun t => { t with input := rest }
    if f.kind ≠ Kind.cmd then countBad s
    else if f.dest = nodeBroadcast then broadcast f s
    else if 1 ≤ f.dest.toNat ∧ f.dest.toNat ≤ 239 then routeCommand f s
    else countBad s

/-- The frames at the head of the input buffer that are not for the management unit leave it one after the other; the first argument
bounds their number (spec R168 b). -/
def drainAll : Nat → State → State
  | 0, s => s
  | n + 1, s => if drainReady s then drainAll n (drainAct s) else s

/-- A valid frame restarts the silence timer; unless IDLE it is offered to the input buffer (spec R167, R168, R182). -/
def acceptFrame (f : Frame) (s : State) : State :=
  let s := s.onProtection fun p => { p with timer := p.timer.map fun _ => p.setting * 100 * Config.ms }
  if f.kind = Kind.idle then s
  else if s.trunk.input.length < Config.inputPlaces then s.onTrunk fun t => { t with input := t.input ++ [f] }
  else s.onCounters fun c => { c with inputDiscards := satInc c.inputDiscards }

/-- A whole frame on the trunk: judged, and accepted or counted (spec R167). -/
def receiveTrunk (bytes : List Byte) (s : State) : State :=
  match readFrame bytes with
  | none => countBad s
  | some f => if f.source = nodeHost then acceptFrame f s else countBad s

/-! ### Frames from the lanes -/

/-- The site whose current step a part-tagged reading is attributed to, with its samples (spec R160). -/
def attributed (s : State) (l : LaneId) (f : Frame) : Option (Site × List Sample) :=
  let site : Site := ⟨(f.tag.toNat / 4096) % 8, by omega⟩
  let q := f.tag.toNat % 4096
  let node := s.tables.instruments[l].node
  match f.tag.msb, readReading f.payload, s.runs[site].ctx with
  | true, some (ch, samples), some c =>
    if f.source = node ∧ node ≠ 0 ∧ s.claims.records[l].holder = some site ∧ s.runs[site].state = .running ∧ c.phase = .collect
        ∧ q = s.runs[site].seq ∧ ch = c.entry.channel then
      some (site, samples)
    else none
  | _, _, _ => none

/-- Whether a tap captures a reading of the given source and channel; node 0 matches no frame (spec R164, R165). -/
def Tap.watches (t : Tap) (source : Byte) (ch : Fin 8) : Bool :=
  t.enabled && decide (t.node ≠ 0 ∧ t.node = source ∧ t.channel = ch)

/-- A tap after a capture (spec R165 a to c). -/
def Tap.capture (t : Tap) (last : Option Sample) (who : Option (Site × StepId)) : Tap :=
  { t with
    last := last, attribution := who, fresh := true
    overrun := if t.fresh then min (t.overrun + 1) 255 else t.overrun }

/-- A reading passes every tap (spec R165). -/
def passTaps (f : Frame) (who : Option (Site × StepId)) (s : State) : State :=
  match readReading f.payload with
  | none => s
  | some (ch, samples) =>
    let notes := allTaps.filter fun t : TapId => s.taps[t].watches f.source ch && !s.taps[t].fresh && s.taps[t].notify
    raiseFree (notes.map Event.tap)
      { s with
        taps := Vector.ofFn fun t : TapId =>
          if s.taps[t].watches f.source ch then s.taps[t].capture samples.getLast? who else s.taps[t] }

/-- A stale reading passes the taps, and is discarded and counted (spec R161, R165). -/
def staleReading (f : Frame) (s : State) : State :=
  (passTaps f none s).onCounters fun c => { c with staleReadings := satInc c.staleReadings }

/-- A reading frame is tapped, then credited, found stale, or forwarded (spec R159 a, R160 to R162, R165). -/
def receiveReading (l : LaneId) (f : Frame) (s : State) : State :=
  if f.tag.msb then
    match attributed s l f with
    | some (site, samples) => appendSamples site samples (passTaps f (some (site, s.runs[site].step)) s)
    | none => staleReading f s
  else forwardUp l f (passTaps f none s)

/-- The output state a status frame leaves on a channel (spec R153 a to d). -/
def reportedOutput (count : Nat) (reports : List (Fin 8 × Output)) (c : Fin 8) (old : Output) : Output :=
  if c.val < count then
    match (reports.filter fun r => decide (r.1 = c)).getLast? with
    | some r => r.2
    | none => old
  else .off

/-- A status frame is applied to the channel table, or discarded (spec R153, R154, R38). -/
def receiveStatus (l : LaneId) (f : Frame) (s : State) : State :=
  let e := s.tables.instruments[l]
  if f.source = e.node ∧ e.node ≠ 0 then
    match readReports f.payload with
    | none => s
    | some reports => raiseHot s (setOutputs l (reportedOutput e.channels reports) s)
  else s

/-- A good frame other than IDLE that an UP lane hands over (spec R159). -/
def receiveInstrument (l : LaneId) (f : Frame) (s : State) : State :=
  if f.kind = Kind.rdg then receiveReading l f s
  else if f.kind = Kind.irsp then forwardUp l f s
  else if f.kind = Kind.sta then receiveStatus l f s
  else s

/-- Whether a frame is a reading that the step would have got whose COLLECT the lane's departure from UP ended (spec R90 b, R160,
R163 c). -/
def meetsDeparture (s : State) (l : LaneId) (f : Frame) : Bool :=
  match s.lanes[l].leftStep, readReading f.payload with
  | some (tag, channel), some (ch, _) =>
    decide (f.kind = Kind.rdg ∧ f.source = s.tables.instruments[l].node ∧ f.source ≠ 0 ∧ f.tag = tag ∧ ch = channel)
  | _, _ => false

/-- A frame received in LOST or DRAINING, beside its count. A reading that the departed step would have got is stale where it arrives at the
instant of the departure (spec R90 b, R163 c, R161), and is discarded as a frame of the lane's state where it arrives later (R133 b). The
model's commands take no time, so that which of the two holds is a free choice for the first frame after the departure, until time passes or
the card's line condition changes (log 30). -/
def receiveDeparted (l : LaneId) (frame : Option Frame) (s : State) : State :=
  let t := s.onLane l fun x => { x with leftStep := none }
  match frame with
  | none => t
  | some f =>
    if meetsDeparture s l f then
      let stale := freePick false [true] s.freeCount
      let t := { t with freeCount := stale.2 }
      if stale.1 then staleReading f t else t
    else t

/-- A whole frame at a lane's receiver, from the card or through the internal loop (spec R133, R137, R140, R141, R144). -/
def receiveLane (l : LaneId) (fromLoop : Bool) (bytes : List Byte) (s : State) : State :=
  let frame := readFrame bytes
  match s.lanes[l].state, fromLoop with
  | .aligning, false => countAligning l frame.isSome s
  | .lost, false => countAligning l frame.isSome (receiveDeparted l frame s)
  | .draining, false => receiveDeparted l frame s
  | .up, false =>
    match frame with
    | none => countBadUp l s
    | some f =>
      let s := s.onLane l fun x => { x with badRun := 0 }
      if f.kind = Kind.idle then s else receiveInstrument l f s
  | .loop, true => countLoop l frame.isSome s
  | _, _ => s

end Sys2Proof.Machine
end

