-- ==== Sys2Proof/Machine/Safe.lean ====
section
/-! DEFINITION. Aborting and stopping sites, entry to SAFE, RESET RUN's effects and the full reset (spec sections 4.7, 10.6, chapter 11). -/

namespace Sys2Proof.Machine

/-! ### Aborts -/

/-- A RUNNING or PAUSED site is aborted; `opens` is false for the aborts of SAFE entry (spec R72 a to g). -/
def abortSite (i : Site) (cause : EndCause) (opens : Bool) (s : State) : State :=
  let ctx := s.runs[i].ctx
  let s := s.onRun i fun r => { r with ctx := none }
  let s := abandonClaims i (dropStepCommit i s)
  let s := match ctx with
    | some c => if c.phase = .collect then sendCancel c s else s
    | none => s
  let s := placeSummary i cause s
  let s := s.onRun i fun r => { r with state := .idle, pause := false }
  if opens && s.tables.sites[i].openOnAbort then enqueue (siteCommit i .siteOpen s) s else s

/-- Aborts those of the given sites that are RUNNING or PAUSED, in the order given (spec R71, R74). The reactions of other blocks come
when all are aborted (log 7). -/
def abortSites (sites : List Site) (cause : Site → EndCause) (opens : Bool) (s : State) : State :=
  sites.foldl (fun s i => if s.runs[i].state = .idle then s else abortSite i (cause i) opens s) s

/-- The sites that share a panel with some site of the mask (spec R71). -/
def panelOf (s : State) (named : SiteMask) : SiteMask :=
  siteMask fun i => allSites.any fun j => named.getLsbD j && decide (s.tables.sites[i].panel = s.tables.sites[j].panel)

/-! ### SAFE -/

/-- The causes of the SAFE state (spec TABLE 11-1, TABLE 10-8). -/
abbrev causeSilence : CauseSet := 0b0010
abbrev causeInput : CauseSet := 0b0100
abbrev causeRequest : CauseSet := 0b1000

/-- OFF frames for the UP lanes with an instrument (spec R185). That the lanes are taken in ascending order is the model's choice
(log 23). -/
def outputsOff (s : State) : State :=
  allLanes.foldl
    (fun s l =>
      let node := s.tables.instruments[l].node
      if s.lanes[l].state = .up ∧ node ≠ 0 then queuePart l (toInstrument node Kind.off 0 []) s else s) s

/-- Entry to SAFE with one cause (spec R183). That the sites are aborted in ascending order is the model's choice (log 23). -/
def enterSafeState (cause : CauseSet) (s : State) : State :=
  let s := s.onProtection fun p => { p with safe := true, causes := cause, openDone := false, timer := none }
  let s := abortSites allSites (fun _ => .safe) false s
  let s := cutFlight (removeAllCommits s)
  let s := outputsOff (requireOpening .safeOpen s)
  raise (.safeEnter s.protection.causes) s

/-- A cause of SAFE arises: entry outside SAFE, one more cause in it (spec R181). -/
def raiseCause (cause : CauseSet) (s : State) : State :=
  if s.protection.safe then s.onProtection fun p => { p with causes := p.causes ||| cause }
  else enterSafeState cause s

/-! ### RESET RUN and full reset -/

/-- A site is stopped without a summary or a SITE-OPEN (spec R76). -/
def stopSite (i : Site) (s : State) : State :=
  let ctx := s.runs[i].ctx
  let s := dropStepCommit i (s.onRun i fun r => { r with state := .idle, ctx := none, pause := false, seq := 0 })
  match ctx with
  | some c => if c.phase = .collect then sendCancel c s else s
  | none => s

/-- The captured part of a tap at its full-reset values (spec R164). -/
def Tap.clear (t : Tap) : Tap := { t with fresh := false, last := none, attribution := none, overrun := 0 }

/-- What RESET RUN does in its event (spec R177 a to f, R130). That the sites are stopped in ascending order is the model's choice
(log 23). -/
def resetRunState (tag : Tag) (s : State) : State :=
  let s := removeAllCommits (clearClaims (allSites.foldl (fun s i => stopSite i s) s))
  let s := { s with
    results := Vector.ofFn fun i : Site => { s.results[i] with records := [], summary := none, credit := 0 }
    taps := Vector.ofFn fun t : TapId => s.taps[t].clear }
  requireOpening .runOpen (s.onTrunk fun t => { t with resetRun := some tag })

/-- The matrix of a full reset: the image is empty, and values of 0 have been shifted through the whole chain and strobed, whatever it
held (spec R1, R2). -/
def Matrix.cleared (m : Matrix) : Matrix := { m with image := 0 }.load 0

/-- A full reset: every block at its reset values under the input levels and card conditions found, then the events of the reset in
an order the spec leaves open (spec R178, R188, R135; log 5). -/
def fullReset (s : State) : State :=
  let cards := Vector.ofFn fun l : LaneId => s.lanes[l].card
  let calling := allLanes.filter fun l : LaneId => s.lanes[l].card = .answer
  let t := (State.cleared s.inputs cards s.freeCount s.pending).onMatrix fun _ => s.matrix.cleared
  let t := calling.foldl (fun t l => t.onLane l fun x => { x with called := true }) t
  raiseFree (.safeEnter t.protection.causes :: calling.map Event.laneCall) t

end Sys2Proof.Machine
end

