-- ==== Sys2Proof/Machine/Reports.lean ====
section
/-! DEFINITION. What the part puts into response data, events and result records: their byte layouts (spec section 10.7). -/

namespace Sys2Proof.Machine

/-! ### Codes (spec TABLE 10-9) -/

def LaneState.code : LaneState → Byte
  | .off => 0
  | .waking => 1
  | .aligning => 2
  | .up => 3
  | .lost => 4
  | .retryWait => 5
  | .faulted => 6
  | .draining => 7
  | .loop => 8

def Verdict.code : Verdict → Byte
  | .none => 0
  | .pass => 1
  | .marginal => 2
  | .failLow => 3
  | .failHigh => 4
  | .failRange => 5
  | .noData => 6

def Cause.code : Cause → Byte
  | .ok => 0
  | .claimTimeout => 1
  | .foreign => 2
  | .noInstrument => 3
  | .patchRange => 4
  | .exclusion => 5
  | .busForeign => 6
  | .holdTimeout => 7
  | .lane => 8
  | .collectTimeout => 9

def EndCause.code : EndCause → Byte
  | .ended => 0
  | .abortHost => 1
  | .abortPanel => 2
  | .absent => 3
  | .safe => 4

/-- Spec TABLE 10-7. -/
def BounceReason.code : BounceReason → Byte
  | .noRoute => 1
  | .badTag => 2
  | .laneDown => 3
  | .held => 4
  | .laneFull => 5

/-- Spec TABLE 10-14. -/
def LoopStatus.code : LoopStatus → Byte
  | .untested => 0
  | .testing => 1
  | .good => 2
  | .bad => 3

/-- Spec TABLE 10-14. -/
def SiteState.code : SiteState → Byte
  | .idle => 0
  | .running => 1
  | .paused => 2

/-- Spec TABLE 10-15. -/
def Phase.code : Phase → Byte
  | .load => 0
  | .claim => 1
  | .apply => 2
  | .settle => 3
  | .trigger => 4
  | .collect => 5
  | .judge => 6
  | .release => 7

/-- Spec TABLE 10-12. -/
def Output.code : Output → Byte
  | .off => 0
  | .on => 1
  | .unknown => 2

/-- Spec TABLE 10-12. -/
def LimitMode.code : LimitMode → Byte
  | .both => 0
  | .low => 1
  | .high => 2
  | .record => 3

/-- Spec TABLE 10-11. -/
def Combine.code : Combine → Byte
  | .set => 0
  | .join => 1
  | .cut => 2
  | .flip => 3

/-- Spec TABLE 10-8. -/
def PauseReason.code : PauseReason → Byte
  | .halt => 0
  | .stopOnFail => 1

/-- One byte for an index that may be absent, 0xFF none. -/
def optByte {n : Nat} (x : Option (Fin n)) : Byte := match x with
  | some i => byteOf i
  | none => 0xFF

/-- Two bytes for an index that may be absent, 0xFFFF none. -/
def optBytes2 {n : Nat} (x : Option (Fin n)) : List Byte := match x with
  | some i => bytes2Of i
  | none => [0xFF, 0xFF]

/-! ### Events and bounces (spec TABLE 10-7, TABLE 10-8) -/

def Event.payload : Event → List Byte
  | .lane l st n => [1, byteOf l, st.code, byteOf n]
  | .laneCall l => [2, byteOf l]
  | .safeEnter causes => [3, causes.setWidth 8]
  | .safeClear => [4]
  | .hotBus b => [5, byteOf b]
  | .openExpired s => [6, byteOf s]
  | .tap t => [7, byteOf t]
  | .sitePaused s step reason => [8, byteOf s] ++ bytes2Of step ++ [reason.code]
  | .board s present => [9, byteOf s, boolByte present]

/-- The EVT frame of a numbered event (spec R175). -/
def eventFrame (e : Nat × Event) : Frame := toHost Kind.evt (partTag 0 e.1) e.2.payload

/-- The BNC frame of a bounce (spec R157). -/
def bounceFrame (b : Bounce) : Frame := toHost Kind.bnc b.tag [b.reason.code, b.node]

/-! ### Result records (spec TABLE 10-10) -/

def StepRecord.bytes (site : Site) (r : StepRecord) : List Byte :=
  [1, byteOf site] ++ bytes2Of r.run ++ bytes2Of r.step
    ++ [byteOf r.series, r.verdict.code, r.cause.code, byteOf r.samplesUsed,
        flagByte [r.overrange, r.sat, r.short, r.disturbed, r.extra, r.mark, r.value.isSome, r.rawMean.isSome],
        BitVec.ofInt 8 r.exponent]
    ++ optBytes2 r.limit
    ++ (match r.value with
        | some v => bytes3 (BitVec.ofInt 24 v)
        | none => [])
    ++ (match r.rawMean with
        | some v => bytes4 (BitVec.ofInt 32 v)
        | none => [])

def Summary.bytes (site : Site) (r : Summary) : List Byte :=
  [2, byteOf site] ++ bytes2Of r.run ++ [r.cause.code, r.worst.code] ++ bytes2Of r.pass ++ bytes2Of r.marginal
    ++ bytes2Of r.fail ++ optBytes2 r.firstFail ++ bytes2Of r.stepsRun

/-! ### Table entries as read (spec TABLE 10-12) -/

def relayBytes (i : Fin 4) (e : RelayType) : List Byte := byteOf i :: (bytes2Of e.operate ++ bytes2Of e.release)

def busBytes (i : Bus) (e : BusEntry) : List Byte := [byteOf i, optByte e.owner, byteOf e.relayType, e.exclusion]

def siteBytes (i : Site) (e : SiteEntry) : List Byte :=
  [byteOf i, byteOf e.firstGroup, byteOf e.groupCount, byteOf e.skew, byteOf e.panel] ++ bytes2Of e.startStep
    ++ bytes2Of e.claimWait ++ bytes2Of e.holdLimit ++ [byteOf e.batch, flagByte [e.markAll, e.openOnAbort]]

def instrumentBytes (i : LaneId) (e : InstrumentEntry) : List Byte := [byteOf i, e.node, optByte e.policy, byteOf e.channels]

def channelBytes (i : ChannelId) (e : ChannelEntry) : List Byte :=
  [byteOf i, optByte e.attach] ++ bytes3 (BitVec.ofInt 24 e.cal.offset) ++ bytes2Of e.cal.gain
    ++ [BitVec.ofInt 8 e.cal.exponent, e.output.code]

def limitBytes (i : LimitId) (e : LimitEntry) : List Byte :=
  bytes2Of i ++ bytes3 (BitVec.ofInt 24 e.low) ++ bytes3 (BitVec.ofInt 24 e.high) ++ bytes2Of e.guard ++ [e.mode.code]

def opBytes (op : PatchOp) : List Byte :=
  [byteOf op.group, byteOf op.rep, op.kind.code, op.enable, op.force, op.forceClose] ++ bytes4 op.pattern ++ bytes4 op.mask

def patchBytes (i : PatchId) (ops : List PatchOp) : List Byte := byteOf i :: byteOf ops.length :: bytesAll opBytes ops

def stepBytes (i : StepId) (e : StepEntry) : List Byte :=
  bytes2Of i ++ optBytes2 e.patch
    ++ [optByte e.instrument, byteOf e.channel, (match e.mode with
          | .average => 0
          | .series => 1), byteOf e.sampleCode]
    ++ bytes2 e.setup ++ optBytes2 e.limit ++ bytes2Of e.settle ++ bytes2Of e.collect
    ++ [flagByte [e.keep, e.stopOnFail, e.mark, e.raw]] ++ optBytes2 e.next

def tapSettingBytes (i : TapId) (t : Tap) : List Byte :=
  [byteOf i, boolByte t.enabled, t.node, byteOf t.channel, boolByte t.notify]

/-- Entries first .. first + n − 1 of a table, or none when the range runs past its end. -/
def readRange {α : Type} {k : Nat} (bytes : Fin k → α → List Byte) (t : Vector α k) (first n : Nat) : Option (List Byte) :=
  if first + n ≤ k then
    some (((List.range n).map fun j => match toFin? k (first + j) with
      | some i => bytes i t[i]
      | none => []).flatten)
  else none

/-- The data of READ TABLE, or none for BAD_VALUE: an unknown table, a count of 0, a range past the end, or entries that do not fit
in a payload behind the response head (spec R170). -/
def readTableData (s : State) (table : Byte) (first n : Nat) : Option (List Byte) := do
  let t := s.tables
  let data ←
    if table = 1 then readRange relayBytes t.relays first n
    else if table = 2 then readRange busBytes t.buses first n
    else if table = 3 then readRange siteBytes t.sites first n
    else if table = 4 then readRange instrumentBytes t.instruments first n
    else if table = 5 then readRange channelBytes t.channels first n
    else if table = 6 then readRange limitBytes t.limits first n
    else if table = 7 then readRange patchBytes t.patches first n
    else if table = 8 then readRange stepBytes t.steps first n
    else if table = 9 then readRange tapSettingBytes s.taps first n
    else none
  if n = 0 ∨ Config.maxPayload < data.length + 2 then none else some data

/-! ### Reports -/

/-- The 53 bytes of READ STATUS (spec R173, TABLE 10-14). -/
def statusData (s : State) : List Byte :=
  let p := s.protection
  let c := s.counters
  [0x08, 0x24, 1, flagByte [p.safe, p.openDone, s.trunk.eventsLost], p.causes.setWidth 8, byteOf p.setting]
    ++ bytes2Of c.badFrames ++ bytes2Of c.inputDiscards ++ bytes2Of c.staleReadings ++ bytes2Of c.forwardDrops
    ++ (allLanes.map fun l : LaneId => s.lanes[l].state.code)
    ++ (allLanes.map fun l : LaneId => s.lanes[l].loopStatus.code)
    ++ (allSites.map fun i : Site => s.runs[i].state.code)
    ++ [byteOf s.engine.queue.length, flagByte [s.engine.flight.isSome, s.xclr]]
    ++ bytes2Of (count s.matrix.image)
    ++ [s.live, byteOf s.trunk.input.length, byteOf s.trunk.events.length]

/-- A site's place in the wait list of a lane (spec R57 c). -/
def waitPlace (s : State) (i : Site) (l : LaneId) : Nat := s.claims.records[l].waits.idxOf i

/-- A time in µs as milliseconds; the rounding is free (spec R57 c; log 11). -/
def inMs (us : Nat) : Nat := if us % Config.ms = 0 then us / Config.ms else us / Config.ms + (Config.roundsUp us).toNat

/-- The 28 bytes of a site report (spec R77, R57, TABLE 10-15). -/
def siteReport (s : State) (i : Site) : List Byte :=
  let r := s.runs[i]
  let q := s.results[i]
  let phase : Byte := match r.state, r.ctx with
    | .running, some c => c.phase.code
    | _, _ => 0xFF
  [byteOf i, r.state.code, phase] ++ bytes2Of r.step ++ bytes2Of r.number ++ bytes2Of r.seq
    ++ [flagByte [r.pause, s.inputs.present[i], q.summary.isSome, s.siteOpening i]]
    ++ bytes2Of r.pass ++ bytes2Of r.marginal ++ bytes2Of r.fail ++ [r.worst.code] ++ optBytes2 r.firstFail ++ bytes2Of r.stepsRun
    ++ [byteOf q.records.length, byteOf q.credit, optByte (s.heldLane i)]
    ++ (match s.waitLane i with
        | some l => [byteOf l, byteOf (waitPlace s i l)] ++ bytes2Of (inMs (s.claims.timers[i].getD 0))
        | none => [0xFF, 0xFF, 0, 0])

/-- A sample as laid out in an RDG payload (spec TABLE 10-6). -/
def sampleBytes (x : Sample) : List Byte := boolByte x.overrange :: bytes3 (BitVec.ofInt 24 x.raw)

/-- The 15 bytes of a tap record; the attribution step of a record without attribution is free (spec R166, TABLE 10-12; log 13). -/
def tapRecord (i : TapId) (t : Tap) : List Byte :=
  tapSettingBytes i t ++ [boolByte t.fresh]
    ++ (match t.last with
        | some x => 1 :: sampleBytes x
        | none => [0, 0, 0, 0, 0])
    ++ (match t.attribution with
        | some (site, step) => byteOf site :: bytes2Of step
        | none => 0xFF :: bytes2 Config.noAttributionStep)
    ++ [byteOf t.overrun]

end Sys2Proof.Machine
end

