-- ==== Sys2Proof/Machine/Results.lean ====
section
/-! DEFINITION. The result unit: when a RES frame is due, what it carries, and its delivery (spec sections 7.6, 7.7). -/

namespace Sys2Proof.Machine

/-- The records of a queue, the summary included (spec R118). -/
def ResultQueue.size (q : ResultQueue) : Nat := q.records.length + q.summary.toList.length

/-- Whether the queue holds a marked record; every summary is marked (spec R120, R124 a). -/
def ResultQueue.hasMark (q : ResultQueue) : Bool := q.summary.isSome || q.records.any StepRecord.mark

/-- Whether a RES frame is due for a queue under a batch threshold (spec R124). -/
def ResultQueue.due (q : ResultQueue) (batch : Nat) : Bool :=
  decide (1 ≤ q.credit) && decide (1 ≤ q.size) && (q.hasMark || decide (batch ≤ q.size))

/-- The records up to and including the youngest marked one. -/
def upToMark (l : List StepRecord) : Nat := l.length - (l.reverse.takeWhile fun r => !r.mark).length

/-- The length of the candidate run (spec R125 a and b). -/
def ResultQueue.candidate (q : ResultQueue) (batch : Nat) : Nat :=
  if batch ≤ q.size ∨ q.summary.isSome then q.size else upToMark q.records

/-- The number of records the frame carries (spec R125). -/
def ResultQueue.carried (q : ResultQueue) (batch : Nat) : Nat :=
  min (q.candidate batch) (min q.credit Config.recordsPerFrame)

/-- The queue after its first c records have been taken (spec R126). -/
def ResultQueue.take (q : ResultQueue) (c : Nat) : ResultQueue :=
  { records := q.records.drop c
    summary := if q.records.length < c then none else q.summary
    credit := q.credit - c
    seq := (q.seq + 1) % 4096 }

/-- The first c records as sent, the summary last (spec R125, TABLE 10-10). -/
def ResultQueue.bytes (q : ResultQueue) (site : Site) (c : Nat) : List Byte :=
  bytesAll (StepRecord.bytes site) (q.records.take c)
    ++ (if q.records.length < c then (q.summary.map (Summary.bytes site)).getD [] else [])

/-- The RES frame of a site with c records (spec R128, TABLE 10-7). -/
def resFrame (i : Site) (q : ResultQueue) (c : Nat) : Frame := toHost Kind.res (partTag i q.seq) (byteOf c :: q.bytes i c)

/-- Whether a RES frame is due for a site (spec R123, R124). -/
def State.resDue (s : State) (i : Site) : Bool := s.results[i].due s.tables.sites[i].batch

/-- The RES frame that the arbiter takes for a site (spec R125). -/
def takeRes (i : Site) (s : State) : Frame × State :=
  let c := s.results[i].carried s.tables.sites[i].batch
  (resFrame i s.results[i] c, s.onResult i fun q => q.take c)

end Sys2Proof.Machine
end

