-- ==== Sys2Proof/Machine/Tables.lean ====
section
/-! DEFINITION. The writes of the host-loaded tables: their checks and gates, entry by entry, and the writing of all entries or none
(spec R3, R5, R7, R59, R78, R100, R101, R103, R150, R151, R170). -/

namespace Sys2Proof.Machine

/-- The status of the first refused entry, or none when every entry passes (spec R170). -/
def firstRefusal {α : Type} (check : α → Option Status) (entries : List α) : Option Status := entries.findSome? check

/-- Whether some site runs, a commit is queued or a transition is in flight (spec R3, R5 b). -/
def matrixInUse (s : State) : Bool :=
  (allSites.any fun i => decide (s.runs[i].state ≠ .idle)) || !s.engine.queue.isEmpty || s.engine.flight.isSome

/-- A table after all in-range entries of a request have been written, a later entry replacing an earlier one of its index
(spec R170). An entry out of range has no place in it (DEDUCED, log 15). -/
def written {α β : Type} {n : Nat} (read : α → Option (Fin n × β)) (entries : List α) (t : Vector β n) : Vector β n :=
  entries.foldl (fun t e => match read e with
    | some (i, b) => t.set i b
    | none => t) t

/-- A check after the range check of an entry; an entry that does not read is refused BAD_VALUE. -/
def ranged {α β : Type} (read : α → Option β) (check : β → Option Status) (e : α) : Option Status :=
  match read e with
  | none => some .badValue
  | some b => check b

/-- The first status of a list of conditions in order. -/
def firstOf (checks : List (Bool × Status)) : Option Status := (checks.find? fun c => c.1).map fun c => c.2

/-- A write with a table id and at least one entry: refused by the first entry that fails, else done (spec R170). The answer is the
status and the state. The entries are judged one after the other, so that a gate of an earlier entry is answered before a bad code of a
later one (the model's choice, log 27). -/
def writeAll {α : Type} (entries : List α) (check : α → Option Status) (write : State → State) (s : State) : Status × State :=
  if entries.isEmpty then (.badValue, s)
  else match firstRefusal check entries with
    | some st => (st, s)
    | none => (.ok, write s)

/-- WRITE TABLE for the relay-type table (spec R3). -/
def writeRelayTypes (es : List RelayTypeRaw) (s : State) : Status × State :=
  writeAll es (ranged RelayTypeRaw.read fun _ => firstOf [(matrixInUse s, .inUse)])
    (State.onTables fun t => { t with relays := written RelayTypeRaw.read es t.relays }) s

/-- WRITE TABLE for the bus table (spec R5). -/
def writeBuses (es : List BusRaw) (s : State) : Status × State :=
  let after := written BusRaw.read es s.tables.buses
  let check (b : Bus × BusEntry) : Option Status := firstOf
    [(matrixInUse s, .inUse),
     (decide (b.2.owner ≠ s.tables.buses[b.1].owner ∧ row s.matrix.image b.1 ≠ 0), .inUse),
     (hasExclusion after s.matrix.image, .exclusion)]
  writeAll es (ranged BusRaw.read check) (State.onTables fun t => { t with buses := after }) s

/-- The groups of an extent (spec R6). -/
def SiteEntry.hasGroup (e : SiteEntry) (g : Nat) : Bool := decide (e.firstGroup ≤ g ∧ g < e.firstGroup + e.groupCount)

/-- Whether two extents share a group (spec R59 c). -/
def overlaps (a b : SiteEntry) : Bool := (List.range 12).any fun g => a.hasGroup g && b.hasGroup g

/-- Whether some pin of an extent has a connection (spec R59 d). -/
def extentInUse (s : State) (e : SiteEntry) : Bool := decide (s.matrix.image &&& onAnyBus (extent e) ≠ 0)

/-- WRITE TABLE for the site table (spec R59). The gate on extents looks at the image alone, as R59 d says, also while a transition in its
break phase has crosspoints to close: where the write makes one of these foreign, it joins the image nonetheless, though R16 says that the
image never holds such a crosspoint (the model's choice, log 29). -/
def writeSites (es : List SiteRaw) (s : State) : Status × State :=
  let after := written SiteRaw.read es s.tables.sites
  let check (e : Site × SiteEntry) : Option Status :=
    let old := s.tables.sites[e.1]
    firstOf
      [(decide (s.runs[e.1].state ≠ .idle), .inUse),
       (allSites.any fun t => decide (t ≠ e.1) && overlaps e.2 after[t], .overlap),
       (decide (e.2.firstGroup ≠ old.firstGroup ∨ e.2.groupCount ≠ old.groupCount) && (extentInUse s old || extentInUse s e.2),
        .inUse)]
  writeAll es (ranged SiteRaw.read check) (State.onTables fun t => { t with sites := after }) s

/-- The gate on a lane's instrument entry and attach buses: the lane in OFF or FAULTED, no holder and no one waiting (spec R151, R56). -/
def laneInUse (s : State) (l : LaneId) : Bool :=
  !(decide (s.lanes[l].state = .off ∨ s.lanes[l].state = .faulted)
    && decide (s.claims.records[l].holder = none) && s.claims.records[l].waits.isEmpty)

/-- How many entries of a request that are in range give a node (spec R150 b). -/
def entriesGiving (es : List InstrumentRaw) (node : Byte) : Nat :=
  (es.filterMap InstrumentRaw.read).countP fun e => decide (e.2.node = node)

/-- WRITE TABLE for the instrument table (spec R150, R151). A nonzero node that two entries of the request give is a duplicate, also where
both name one lane (R150 b); an entry out of range gives none (log 15). -/
def writeInstruments (es : List InstrumentRaw) (s : State) : Status × State :=
  let after := written InstrumentRaw.read es s.tables.instruments
  let check (e : LaneId × InstrumentEntry) : Option Status := firstOf
    [(decide (e.2.node ≠ 0) && ((allLanes.any fun l => decide (l ≠ e.1 ∧ after[l].node = e.2.node))
        || decide (2 ≤ entriesGiving es e.2.node)), .duplicateNode),
     (decide (e.2 ≠ s.tables.instruments[e.1]) && laneInUse s e.1, .inUse)]
  writeAll es (ranged InstrumentRaw.read check) (State.onTables fun t => { t with instruments := after }) s

/-- One channel entry written: attach bus and calibration, the output state kept (spec R100, R101). -/
def writeChannel (cs : Vector ChannelEntry 96) (e : ChannelRaw) : Vector ChannelEntry 96 :=
  match ChannelRaw.read e with
  | some (i, a, cal) => cs.set i { cs[i] with attach := a, cal := cal }
  | none => cs

/-- WRITE TABLE for the channel table: the gate applies to an entry that changes its attach bus; a flagged bus that the write makes
live is hot (spec R100, R101, R151, R154). -/
def writeChannels (es : List ChannelRaw) (s : State) : Status × State :=
  let check (e : ChannelId × Option Bus × Calibration) : Option Status := firstOf
    [(decide (e.2.1 ≠ s.tables.channels[e.1].attach) && laneInUse s (laneOfChannel e.1), .inUse)]
  writeAll es (ranged ChannelRaw.read check)
    (fun s => raiseHot s (s.onTables fun t => { t with channels := es.foldl writeChannel t.channels })) s

/-- WRITE TABLE for the limit table (spec R103). -/
def writeLimits (es : List LimitRaw) (s : State) : Status × State :=
  writeAll es (ranged LimitRaw.read fun e => firstOf [(decide (e.2.mode = .both ∧ e.2.low > e.2.high), .limitOrder)])
    (State.onTables fun t => { t with limits := written LimitRaw.read es t.limits }) s

/-- WRITE TABLE for the patch table (spec R7). -/
def writePatches (es : List PatchRaw) (s : State) : Status × State :=
  writeAll es (ranged PatchRaw.read fun _ => none)
    (State.onTables fun t => { t with patches := written PatchRaw.read es t.patches }) s

/-- WRITE TABLE for the step table (spec R78). -/
def writeSteps (es : List StepRaw) (s : State) : Status × State :=
  writeAll es (ranged StepRaw.read fun _ => none)
    (State.onTables fun t => { t with steps := written StepRaw.read es t.steps }) s

end Sys2Proof.Machine
end

