-- ==== Sys2Proof/Machine/Requests.lean ====
section
/-! DEFINITION. The management unit: what serving each request does, up to its response (spec R169 to R178 and the rules that TABLE 10-2
names). -/

namespace Sys2Proof.Machine

/-- A request refused with a status, nothing changed (spec R169). -/
def refuse (tag : Tag) (code : Byte) (st : Status) (s : State) : State := respond tag code st [] s

/-! ### Small requests (spec R172, R182, R187) -/

def serveNop (tag : Tag) (s : State) : State := respond tag 0x00 .ok [] s

/-- The silence timer started from a setting; 0 stops it (spec R182). -/
def silenceTimer (setting : Nat) : Option Nat := if setting = 0 then none else some (setting * 100 * Config.ms)

def serveSetSilence (tag : Tag) (setting : Byte) (s : State) : State :=
  if 80 < setting.toNat then refuse tag 0x10 .badValue s
  else respond tag 0x10 .ok []
    (s.onProtection fun p =>
      { p with setting := setting.toNat, timer := if p.safe then none else silenceTimer setting.toNat })

/-- The CANCELLED answers of the entry stand ahead of the response (spec R172). -/
def serveEnterSafe (tag : Tag) (s : State) : State := respond tag 0x11 .ok [] (raiseCause causeRequest s)

/-- CLEAR SAFE (spec R187). -/
def serveClearSafe (tag : Tag) (s : State) : State :=
  if !s.protection.safe then respond tag 0x12 .ok [] s
  else if s.inputs.safeReq || !s.protection.openDone then refuse tag 0x12 .safeActive s
  else
    raise .safeClear (respond tag 0x12 .ok []
      (s.onProtection fun p => { p with safe := false, causes := 0, timer := silenceTimer p.setting }))

/-! ### Status and tables (spec R170, R173) -/

/-- READ STATUS: the data is composed before the clear (spec R173). -/
def serveReadStatus (tag : Tag) (clear : Byte) (s : State) : State :=
  match readFlag clear with
  | none => refuse tag 0x01 .badValue s
  | some c =>
    let t := respond tag 0x01 .ok (statusData s) s
    if c then
      (t.onCounters fun _ => { badFrames := 0, inputDiscards := 0, staleReadings := 0, forwardDrops := 0 }).onTrunk
        fun k => { k with eventsLost := false }
    else t

/-- WRITE TABLE: the outcome of the table's own write is answered (spec R170). -/
def serveWrite (tag : Tag) (r : Status × State) : State := respond tag 0x02 r.1 [] r.2

def serveReadTable (tag : Tag) (table : Byte) (first : Half) (n : Byte) (s : State) : State :=
  match readTableData s table first.toNat n.toNat with
  | none => refuse tag 0x03 .badValue s
  | some data => respond tag 0x03 .ok data s

/-! ### Lanes and taps (spec R134, R164, R166) -/

/-- The last mention of a lane in a request, if it is named (spec R134). -/
def lastSetting (l : LaneId) (settings : List (LaneId × Bool × Bool)) : Option (Bool × Bool) :=
  ((settings.filter fun e => decide (e.1 = l)).getLast?).map fun e => e.2

/-- SET LANES: the named lanes in ascending order (spec R134). -/
def serveSetLanes (tag : Tag) (settings : List LaneSetRaw) (s : State) : State :=
  match readAll LaneSetRaw.read settings with
  | none => refuse tag 0x04 .badValue s
  | some es =>
    let t := allLanes.foldl (fun s l => match lastSetting l es with
      | some (d, b) => setLane l d b s
      | none => s) s
    respond tag 0x04 .ok (allLanes.map fun l : LaneId => t.lanes[l].state.code) t

/-- SET TAPS (spec R164). A tap that the request names more than once takes the settings of its last mention (the model's choice,
log 26). -/
def serveSetTaps (tag : Tag) (settings : List TapRaw) (s : State) : State :=
  match settings, readAll TapRaw.read settings with
  | _ :: _, some es => respond tag 0x0E .ok [] (es.foldl (fun s e => s.onTap e.1 fun _ => e.2) s)
  | _, _ => refuse tag 0x0E .badValue s

/-- TAKE TAPS (spec R166). -/
def serveTakeTaps (tag : Tag) (s : State) : State :=
  let data := (allTaps.map fun t : TapId => tapRecord t s.taps[t]).flatten
  respond tag 0x0F .ok data
    { s with taps := Vector.ofFn fun t : TapId => { s.taps[t] with fresh := false, overrun := 0 } }

/-! ### The matrix (spec R20, R21, R25, R171) -/

def serveReadMatrix (tag : Tag) (group : Byte) (s : State) : State :=
  if 11 < group.toNat then refuse tag 0x06 .badValue s
  else respond tag 0x06 .ok ((allBuses.map fun b => bytes4 (groupFlags s.matrix.image b group.toNat)).flatten) s

def serveVerifyMatrix (tag : Tag) (group : Byte) (expected care : BusSet) (s : State) : State :=
  if 11 < group.toNat then refuse tag 0x07 .badValue s
  else respond tag 0x07 .ok (bytes4 (matchFlags s.matrix.image group.toNat expected care)) s

/-- The lowest free host place (spec R25; log 12). -/
def freeHostPlace (s : State) : Option (Fin 4) :=
  (List.finRange 4).find? fun k => s.engine.queue.all fun c => decide (c.place ≠ .host k)

/-- A HOST commit enters. With a hold limit of 0 it begins at the moment it enters or expires at once (spec R25). -/
def enterHost (c : Commit) (s : State) : State :=
  if c.holdLimit = 0 then
    if s.engine.flight.isNone && s.engine.openings.isEmpty && !held s c then beginCommit c s else expireCommit c s
  else enqueue c s

def servePatch (tag : Tag) (override : Byte) (hold : Half) (ops : List OpRaw) (s : State) : State :=
  match readFlag override, readHostOps ops with
  | some o, some l =>
    if s.protection.safe then refuse tag 0x05 .safe s
    else match freeHostPlace s with
      | none => refuse tag 0x05 .busy s
      | some k =>
        enterHost { place := .host k, work := .host tag o l, holdLimit := hold.toNat, remaining := hold.toNat * Config.ms } s
  | _, _ => refuse tag 0x05 .badValue s

/-! ### Sites (spec R63 to R71, R77, R122) -/

/-- Why a site cannot be started, or OK (spec R63). -/
def startStatus (s : State) (i : Site) : Status :=
  if s.protection.safe then .safe
  else if s.runs[i].state ≠ .idle then .inUse
  else if !s.inputs.present[i] then .noBoard
  else if s.results[i].summary.isSome || s.siteOpening i then .busy
  else .ok

/-- A site is started (spec R64). -/
def startSite (i : Site) (s : State) : State :=
  startLoad i s.tables.sites[i].startStep
    (s.onRun i fun r =>
      { r with state := .running, number := (r.number + 1) % 65536, pause := false, pass := 0, marginal := 0, fail := 0,
               worst := .none, firstFail := none, stepsRun := 0 })

def serveStart (tag : Tag) (sites : SiteMask) (s : State) : State :=
  let named := sitesOf sites
  let t := named.foldl (fun t i => if startStatus s i = .ok then startSite i t else t) s
  respond tag 0x08 .ok (named.map fun i => (startStatus s i).code) t

/-- Whether HALT sets a site's pause request (spec R65). -/
def halts (s : State) (sites : SiteMask) (i : Site) : Bool :=
  sites.getLsbD i && decide (s.runs[i].state = .running) && !s.runs[i].pause

def serveHalt (tag : Tag) (sites : SiteMask) (s : State) : State :=
  respond tag 0x09 .ok [siteMask (halts s sites)]
    { s with runs := Vector.ofFn fun i : Site => if halts s sites i then { s.runs[i] with pause := true } else s.runs[i] }

/-- A PAUSED site goes on by its current step's link (spec R68). -/
def resumeSite (i : Site) (s : State) : State :=
  match s.tables.steps[s.runs[i].step].next with
  | some n => startLoad i n (s.onRun i fun r => { r with state := .running })
  | none => endRun i s

def serveResume (tag : Tag) (sites : SiteMask) (s : State) : State :=
  let named := (sitesOf sites).filter fun i : Site => s.runs[i].state = .paused
  respond tag 0x0A .ok [siteMask fun i => named.contains i] (named.foldl (fun t i => resumeSite i t) s)

/-- The set an ABORT request works on (spec R71). -/
def abortSet (s : State) (sites : SiteMask) (panel : Bool) : SiteMask := if panel then sites ||| panelOf s sites else sites

def serveAbort (tag : Tag) (sites : SiteMask) (panel : Byte) (s : State) : State :=
  match readFlag panel with
  | none => refuse tag 0x0B .badValue s
  | some p =>
    let taken := (sitesOf (abortSet s sites p)).filter fun i : Site => s.runs[i].state ≠ .idle
    respond tag 0x0B .ok [siteMask fun i => taken.contains i]
      (abortSites taken (fun i => if sites.getLsbD i then .abortHost else .abortPanel) true s)

/-- CREDIT (spec R122). -/
def serveCredit (tag : Tag) (site amount : Byte) (s : State) : State :=
  match toFin? 8 site.toNat with
  | none => refuse tag 0x0C .badValue s
  | some i =>
    if amount = 0 then refuse tag 0x0C .badValue s
    else
      let c := min (s.results[i].credit + amount.toNat) 255
      respond tag 0x0C .ok [byteOf c] (s.onResult i fun q => { q with credit := c })

def serveReadSite (tag : Tag) (sites : SiteMask) (s : State) : State :=
  respond tag 0x0D .ok (((sitesOf sites).map (siteReport s)).flatten) s

/-! ### Resets (spec R177, R178) -/

/-- RESET RUN: no answer is placed now, unless it is BUSY (spec R177). -/
def serveResetRun (tag : Tag) (s : State) : State :=
  if s.trunk.resetRun.isSome then refuse tag 0x13 .busy s else resetRunState tag s

/-- RESET FULL: answered OK, after which no request is taken (spec R178). The frames that stood behind it in the input buffer, up to the
next request, reach the head in this event and leave it (spec R168 b); those that arrive later stay. -/
def serveResetFull (tag : Tag) (s : State) : State :=
  (drainAll s.trunk.input.length (respond tag 0x14 .ok [] s)).onTrunk fun t => { t with closed := true }

/-! ### Serving -/

/-- One request served in its event, by its kind. -/
def serve (tag : Tag) (r : Request) (s : State) : State :=
  match r with
  | .nop => serveNop tag s
  | .readStatus c => serveReadStatus tag c s
  | .writeRelayTypes es => serveWrite tag (writeRelayTypes es s)
  | .writeBuses es => serveWrite tag (writeBuses es s)
  | .writeSites es => serveWrite tag (writeSites es s)
  | .writeInstruments es => serveWrite tag (writeInstruments es s)
  | .writeChannels es => serveWrite tag (writeChannels es s)
  | .writeLimits es => serveWrite tag (writeLimits es s)
  | .writePatches es => serveWrite tag (writePatches es s)
  | .writeSteps es => serveWrite tag (writeSteps es s)
  | .writeNoTable _ => refuse tag 0x02 .badValue s
  | .readTable t f n => serveReadTable tag t f n s
  | .setLanes es => serveSetLanes tag es s
  | .patch o h ops => servePatch tag o h ops s
  | .readMatrix g => serveReadMatrix tag g s
  | .verifyMatrix g e c => serveVerifyMatrix tag g e c s
  | .start m => serveStart tag m s
  | .halt m => serveHalt tag m s
  | .resume m => serveResume tag m s
  | .abort m p => serveAbort tag m p s
  | .credit i a => serveCredit tag i a s
  | .readSite m => serveReadSite tag m s
  | .setTaps es => serveSetTaps tag es s
  | .takeTaps => serveTakeTaps tag s
  | .setSilence x => serveSetSilence tag x s
  | .enterSafe => serveEnterSafe tag s
  | .clearSafe => serveClearSafe tag s
  | .resetRun => serveResetRun tag s
  | .resetFull => serveResetFull tag s

/-- A management frame's payload served: BAD_REQUEST echoes the code of a request that cannot be read, 0xFF when there is none
(spec R169 a to c). -/
def servePayload (tag : Tag) (payload : List Byte) (s : State) : State :=
  match readRequest payload with
  | some r => serve tag r s
  | none => refuse tag (payload.headD 0xFF) .badRequest s

end Sys2Proof.Machine
end

