-- ==== Sys2Proof/Machine/Schedule.lean ====
section
/-! DEFINITION. What follows in the same event: the blocks act until none has anything left to do, and the management unit takes the
requests it can (spec section 0.3, R29, R80, R168, R169). -/

namespace Sys2Proof.Machine

/-- Something a block can do now without waiting. -/
inductive Activity where
  /-- A running step goes on (spec R80). -/
  | site (i : Site)
  /-- The transition engine begins something (spec R29, R40). -/
  | engine
  /-- The hold timer of the commit that the engine could begin runs out before it begins (spec R30 c; log 5). -/
  | lapse
  /-- The head of the input buffer leaves without the management unit (spec R168 b and c). -/
  | drain
  /-- The k-th of the events whose order is open is raised (spec R175; log 5). -/
  | due (k : Nat)
deriving DecidableEq, Repr

/-- Everything that can be done now. -/
def activities (s : State) : List Activity :=
  ((allSites.filter (siteReady s)).map Activity.site)
    ++ (if engineReady s then [.engine] else [])
    ++ (if lapseReady s then [.lapse] else [])
    ++ (if drainReady s then [.drain] else [])
    ++ ((List.range s.due.length).map Activity.due)

/-- One of them done. -/
def act (a : Activity) (s : State) : State :=
  match a with
  | .site i => siteAct i s
  | .engine => engineAct s
  | .lapse => lapseAct s
  | .drain => drainAct s
  | .due k =>
    match s.due[k]? with
    | some e => raise e { s with due := s.due.eraseIdx k }
    | none => s

/-- The blocks act, one thing at a time, until nothing is left to do; where several things can be done, which comes first is free
(log 5). The first argument bounds the number of acts (log 6). -/
def settle : Nat → State → State
  | 0, s => s
  | n + 1, s =>
    match activities s with
    | [] => s
    | a :: l =>
      let c := freePick a l s.freeCount
      settle n (act c.1 { s with freeCount := c.2 })

/-- The management frame the management unit takes now: the head of the input buffer when no response waits and no RESET FULL has been
answered (spec R168 a, R169, R178). -/
def takeRequest (s : State) : Option (Frame × State) :=
  match s.trunk.input with
  | [] => none
  | f :: rest =>
    if f.forPart ∧ s.trunk.responses = [] ∧ s.trunk.closed = false then some (f, s.onTrunk fun t => { t with input := rest })
    else none

/-- The event runs on: the blocks settle, and while the management unit can take a request it serves it and they settle again
(spec R169; log 2). The first argument bounds the requests taken. -/
def runOn : Nat → State → State
  | 0, s => s
  | n + 1, s =>
    let s := settle Config.eventFuel s
    match takeRequest s with
    | none => s
    | some (f, t) => runOn n (servePayload f.tag f.payload t)

/-- The rest of an event after its own first effect. -/
def runEvent (s : State) : State := runOn (s.trunk.input.length + 1) s

/-- An event with its first effect and what follows; while RST-N is held low the part takes in nothing and sends nothing (spec R178). -/
def event (f : State → State) (s : State) : Host.Outcome State Fault Refusal :=
  if s.inputs.rstLow then .next s else .next (runEvent (f s))

/-- The running out of a timer with the given time left: that time passes, then its effect follows. A timer that does not run has no
effect (spec R49 a; log 3, log 4). -/
def expiry (left : Option Nat) (f : State → State) (s : State) : Host.Outcome State Fault Refusal :=
  match left with
  | none => .next s
  | some d => event (fun s => f (s.elapse d)) s

end Sys2Proof.Machine
end

