-- ==== Sys2Proof/Machine/LaneCommands.lean ====
section
/-! DEFINITION. The meanings of the lane commands: frames, card conditions, windows and the lane transmitters (spec chapter 8). -/

namespace Sys2Proof.Machine

/-- LANE_FRAME_RECEIVE (spec R133, R159). -/
def execLaneFrameReceive (l : LaneId) (fromLoop : Bool) (bytes : List Byte) (s : State) : Host.Outcome State Fault Refusal :=
  event (receiveLane l fromLoop bytes) s

/-- CARD_CONDITION_CHANGE; while RST-N is held low the condition alone changes (spec R135 to R143; log 18). -/
def execCardConditionChange (l : LaneId) (c : CardCondition) (s : State) : Host.Outcome State Fault Refusal :=
  if s.lanes[l].card = c then .next s
  else if s.inputs.rstLow then .next (s.onLane l fun x => { x with card := c })
  else event (cardChanged l c) s

/-- The time left on a lane's state timer in a state; none where the lane is in another. -/
def State.laneTimer (s : State) (l : LaneId) (st : LaneState) : Option Nat :=
  if s.lanes[l].state = st then s.lanes[l].timer else none

/-- WAKE_WINDOW_EXPIRE: a failed attempt (spec R136, R138). -/
def execWakeWindowExpire (l : LaneId) (s : State) : Host.Outcome State Fault Refusal :=
  expiry (s.laneTimer l .waking) (failAttempt l) s

/-- ALIGN_WINDOW_EXPIRE: a failed attempt (spec R137, R138). -/
def execAlignWindowExpire (l : LaneId) (s : State) : Host.Outcome State Fault Refusal :=
  expiry (s.laneTimer l .aligning) (failAttempt l) s

/-- LOST_WINDOW_EXPIRE: RETRY_WAIT with attempts 0 and EVT LANE (spec R141, R147). -/
def execLostWindowExpire (l : LaneId) (s : State) : Host.Outcome State Fault Refusal :=
  expiry (s.laneTimer l .lost) (fun s => let t := enterRetryWait l 0 s
                                         raise (laneEvent t l) t) s

/-- RETRY_TIME_EXPIRE: WAKING with attempts kept (spec R142). -/
def execRetryTimeExpire (l : LaneId) (s : State) : Host.Outcome State Fault Refusal :=
  expiry (s.laneTimer l .retryWait) (fun s => enterWaking l s.lanes[l].attempts s) s

/-- DRAIN_LIMIT_EXPIRE (spec R143). -/
def execDrainLimitExpire (l : LaneId) (s : State) : Host.Outcome State Fault Refusal :=
  expiry (s.laneTimer l .draining) (endDraining l) s

/-- QUIET_TIMER_REACH (spec R143). -/
def execQuietTimerReach (l : LaneId) (s : State) : Host.Outcome State Fault Refusal :=
  expiry (if s.lanes[l].state = .draining then s.lanes[l].quiet else none) (endDraining l) s

/-- LOOP_WINDOW_EXPIRE: the test has failed (spec R144). -/
def execLoopWindowExpire (l : LaneId) (s : State) : Host.Outcome State Fault Refusal :=
  expiry (s.laneTimer l .loop) (State.onLane l fun x => { x with loopStatus := .bad, timer := none }) s

/-- LANE_SEND_BEGIN: the frame sent before is finished (spec R132; log 14). -/
def execLaneSendBegin (l : LaneId) (s : State) : Host.Outcome State Fault Refusal := event (sendNext l) s

end Sys2Proof.Machine
end

