-- ==== Sys2Proof/Machine/PinCommands.lean ====
section
/-! DEFINITION. The meanings of the discrete inputs' changes (spec R60, R74, R181). The levels follow the pins while RST-N is held low
too (log 18). -/

namespace Sys2Proof.Machine

/-- SAFE-REQ at a level. -/
def setSafeReq (level : Bool) (s : State) : State := s.onInputs fun i => { i with safeReq := level }

/-- SAFE_REQ_ASSERT: a change from inactive to asserted raises INPUT (spec R181 c). -/
def execSafeReqAssert (s : State) : Host.Outcome State Fault Refusal :=
  if s.inputs.safeReq then .next s else event (raiseCause causeInput) (setSafeReq true s)

/-- SAFE_REQ_RELEASE: the level alone changes (spec R181). -/
def execSafeReqRelease (s : State) : Host.Outcome State Fault Refusal := .next (setSafeReq false s)

/-- A PRESENT input at a level. -/
def setPresent (i : Site) (level : Bool) (s : State) : State :=
  s.onInputs fun x => { x with present := x.present.set i level }

/-- The aborts of a removed board: its own site with ABSENT, and the sites of its panel with ABORT_PANEL, in ascending order, when its
site is RUNNING or PAUSED (spec R74, R71). -/
def removeBoard (i : Site) (s : State) : State :=
  if s.runs[i].state = .idle then s
  else
    abortSites (allSites.filter fun j : Site => s.tables.sites[j].panel = s.tables.sites[i].panel)
      (fun j => if j = i then .absent else .abortPanel) true s

/-- PRESENT_CHANGE: a change of level sends EVT BOARD, and a removal aborts (spec R60, R74). -/
def execPresentChange (i : Site) (level : Bool) (s : State) : Host.Outcome State Fault Refusal :=
  if s.inputs.present[i] = level then .next s
  else event (fun s => let t := raise (.board i level) s
                       if level then t else removeBoard i t) (setPresent i level s)

end Sys2Proof.Machine
end

