-- ==== Sys2Proof/Machine/RequestCommands.lean ====
section
/-! DEFINITION. The meanings of the management requests. Each is the arrival of the host's management frame that carries the request;
the management unit takes it when it heads the input buffer and no response waits, in this event or a later one (spec R168, R169;
log 2). -/

namespace Sys2Proof.Machine

/-- A management frame with a payload arrives; a payload that no frame can hold makes a bad frame (spec R167 b). -/
def arrive (tag : Tag) (payload : List Byte) (s : State) : State :=
  if payload.length ≤ Config.maxPayload then acceptFrame (mgtFrame tag payload) s else countBad s

/-- The arrival of a request. -/
def request (tag : Tag) (r : Request) (s : State) : Host.Outcome State Fault Refusal := event (arrive tag r.payload) s

/-- BAD_REQUEST: the arrival of a payload that no layout admits (spec R169 a to c). -/
def execBadRequest (tag : Tag) (payload : List Byte) (s : State) : Host.Outcome State Fault Refusal := event (arrive tag payload) s

/-- NOP (spec R172 a). -/
def execNop (tag : Tag) (s : State) : Host.Outcome State Fault Refusal := request tag .nop s

/-- READ_STATUS (spec R173). -/
def execReadStatus (tag : Tag) (clear : Byte) (s : State) : Host.Outcome State Fault Refusal := request tag (.readStatus clear) s

/-- WRITE_RELAY_TYPE_TABLE (spec R3, R170). -/
def execWriteRelayTypeTable (tag : Tag) (entries : List RelayTypeRaw) (s : State) : Host.Outcome State Fault Refusal :=
  request tag (.writeRelayTypes entries) s

/-- WRITE_BUS_TABLE (spec R5, R170). -/
def execWriteBusTable (tag : Tag) (entries : List BusRaw) (s : State) : Host.Outcome State Fault Refusal :=
  request tag (.writeBuses entries) s

/-- WRITE_SITE_TABLE (spec R59, R170). -/
def execWriteSiteTable (tag : Tag) (entries : List SiteRaw) (s : State) : Host.Outcome State Fault Refusal :=
  request tag (.writeSites entries) s

/-- WRITE_INSTRUMENT_TABLE (spec R150, R151, R170). -/
def execWriteInstrumentTable (tag : Tag) (entries : List InstrumentRaw) (s : State) : Host.Outcome State Fault Refusal :=
  request tag (.writeInstruments entries) s

/-- WRITE_CHANNEL_TABLE (spec R100, R151, R170). -/
def execWriteChannelTable (tag : Tag) (entries : List ChannelRaw) (s : State) : Host.Outcome State Fault Refusal :=
  request tag (.writeChannels entries) s

/-- WRITE_LIMIT_TABLE (spec R103, R170). -/
def execWriteLimitTable (tag : Tag) (entries : List LimitRaw) (s : State) : Host.Outcome State Fault Refusal :=
  request tag (.writeLimits entries) s

/-- WRITE_PATCH_TABLE (spec R7, R170). -/
def execWritePatchTable (tag : Tag) (entries : List PatchRaw) (s : State) : Host.Outcome State Fault Refusal :=
  request tag (.writePatches entries) s

/-- WRITE_STEP_TABLE (spec R78, R170). -/
def execWriteStepTable (tag : Tag) (entries : List StepRaw) (s : State) : Host.Outcome State Fault Refusal :=
  request tag (.writeSteps entries) s

/-- READ_TABLE (spec R170). -/
def execReadTable (tag : Tag) (table : Byte) (first : Half) (count : Byte) (s : State) : Host.Outcome State Fault Refusal :=
  request tag (.readTable table first count) s

/-- SET_LANES (spec R134). -/
def execSetLanes (tag : Tag) (settings : List LaneSetRaw) (s : State) : Host.Outcome State Fault Refusal :=
  request tag (.setLanes settings) s

/-- PATCH (spec R171). -/
def execPatch (tag : Tag) (override : Byte) (holdLimit : Half) (ops : List OpRaw) (s : State) : Host.Outcome State Fault Refusal :=
  request tag (.patch override holdLimit ops) s

/-- READ_MATRIX (spec R20). -/
def execReadMatrix (tag : Tag) (group : Byte) (s : State) : Host.Outcome State Fault Refusal := request tag (.readMatrix group) s

/-- VERIFY_MATRIX (spec R21). -/
def execVerifyMatrix (tag : Tag) (group : Byte) (expected care : BusSet) (s : State) : Host.Outcome State Fault Refusal :=
  request tag (.verifyMatrix group expected care) s

/-- START (spec R63, R64). -/
def execStart (tag : Tag) (sites : SiteMask) (s : State) : Host.Outcome State Fault Refusal := request tag (.start sites) s

/-- HALT (spec R65). -/
def execHalt (tag : Tag) (sites : SiteMask) (s : State) : Host.Outcome State Fault Refusal := request tag (.halt sites) s

/-- RESUME (spec R68). -/
def execResume (tag : Tag) (sites : SiteMask) (s : State) : Host.Outcome State Fault Refusal := request tag (.resume sites) s

/-- ABORT (spec R71, R72). -/
def execAbort (tag : Tag) (sites : SiteMask) (panel : Byte) (s : State) : Host.Outcome State Fault Refusal :=
  request tag (.abort sites panel) s

/-- CREDIT (spec R122). -/
def execCredit (tag : Tag) (site amount : Byte) (s : State) : Host.Outcome State Fault Refusal :=
  request tag (.credit site amount) s

/-- READ_SITE (spec R77). -/
def execReadSite (tag : Tag) (sites : SiteMask) (s : State) : Host.Outcome State Fault Refusal := request tag (.readSite sites) s

/-- SET_TAPS (spec R164). -/
def execSetTaps (tag : Tag) (settings : List TapRaw) (s : State) : Host.Outcome State Fault Refusal :=
  request tag (.setTaps settings) s

/-- TAKE_TAPS (spec R166). -/
def execTakeTaps (tag : Tag) (s : State) : Host.Outcome State Fault Refusal := request tag .takeTaps s

/-- SET_SILENCE (spec R172 b, R182). -/
def execSetSilence (tag : Tag) (setting : Byte) (s : State) : Host.Outcome State Fault Refusal :=
  request tag (.setSilence setting) s

/-- ENTER_SAFE (spec R172 c, R183). -/
def execEnterSafe (tag : Tag) (s : State) : Host.Outcome State Fault Refusal := request tag .enterSafe s

/-- CLEAR_SAFE (spec R172 d, R187). -/
def execClearSafe (tag : Tag) (s : State) : Host.Outcome State Fault Refusal := request tag .clearSafe s

/-- RESET_RUN (spec R177). -/
def execResetRun (tag : Tag) (s : State) : Host.Outcome State Fault Refusal := request tag .resetRun s

/-- RESET_FULL (spec R178). -/
def execResetFull (tag : Tag) (s : State) : Host.Outcome State Fault Refusal := request tag .resetFull s

end Sys2Proof.Machine
end

