-- ==== Sys2Proof/Machine/Arbiter.lean ====
section
/-! DEFINITION. The transmit arbiter (spec R176). -/

namespace Sys2Proof.Machine

/-- The numbers 0 .. n − 1 in rotation, beginning after the last one served. -/
def rotation {n : Nat} (last : Fin n) : List (Fin n) :=
  (List.finRange n).filter (fun k => decide (last < k)) ++ (List.finRange n).filter (fun k => decide (k ≤ last))

/-- The first lane in rotation whose up buffer holds a frame (spec R176 d). -/
def nextUpLane (s : State) : Option LaneId := (rotation s.trunk.lastLane).find? fun l => !s.lanes[l].upBuffer.isEmpty

/-- The first site in rotation for which a RES frame is due (spec R176 e). -/
def nextDueSite (s : State) : Option Site := (rotation s.trunk.lastSite).find? s.resDue

/-- A frame taken from an up buffer leaves as it was received, and the lane pointer moves (spec R176 d). -/
def takeUp (l : LaneId) (s : State) : Option (Frame × State) :=
  match s.lanes[l].upBuffer with
  | [] => none
  | f :: rest => some (f, (s.onLane l fun x => { x with upBuffer := rest }).onTrunk fun t => { t with lastLane := l })

/-- The first frame of the first store that holds one, in the order of the stores (spec R176 a to e). -/
def choose (s : State) : Option (Frame × State) :=
  match s.trunk.responses with
  | f :: rest => some (f, s.onTrunk fun t => { t with responses := rest })
  | [] =>
    match s.trunk.events with
    | e :: rest => some (eventFrame e, s.onTrunk fun t => { t with events := rest })
    | [] =>
      match s.trunk.bounces with
      | b :: rest => some (bounceFrame b, s.onTrunk fun t => { t with bounces := rest })
      | [] =>
        match nextUpLane s with
        | some l => takeUp l s
        | none =>
          match nextDueSite s with
          | some i =>
            let r := takeRes i s
            some (r.1, r.2.onTrunk fun t => { t with lastSite := i })
          | none => none

/-- The transmitter is free, and takes the chosen frame or stays free (spec R176; log 14). -/
def transmit (s : State) : State :=
  match choose s with
  | some (f, t) => t.onTrunk fun k => { k with sending := some f }
  | none => s.onTrunk fun k => { k with sending := none }

/-- Whether the transmitter is sending the RESET FULL response, whose end is the full reset (spec R178). -/
def State.sendingReset (s : State) : Bool :=
  s.trunk.closed && s.trunk.sending.any fun f => decide (f.kind = Kind.rsp ∧ f.payload = [0x14, 0])

end Sys2Proof.Machine
end

