-- ==== Sys2Proof/Machine/ResetCommands.lean ====
section
/-! DEFINITION. The meanings of the full resets (spec R178, R188). -/

namespace Sys2Proof.Machine

/-- RESET_FULL_EXECUTE: the transmitter finishes sending the RESET FULL response; with no such response on the trunk there is nothing
to finish (spec R178; log 4). -/
def execResetFullExecute (s : State) : Host.Outcome State Fault Refusal := if s.sendingReset then .next (fullReset s) else .next s

/-- POWER_ON: a full reset at once; the level of RST-N stays as it is (spec R178; log 18). -/
def execPowerOn (s : State) : Host.Outcome State Fault Refusal := .next (fullReset s)

/-- RST_N_ASSERT: RST-N is low, and a full reset is performed at once (spec R178; log 18). -/
def execRstNAssert (s : State) : Host.Outcome State Fault Refusal := .next (fullReset (s.onInputs fun i => { i with rstLow := true }))

/-- RST_N_RELEASE: RST-N returns high, and the full reset is complete under the inputs found then (spec R178, R188; log 18). -/
def execRstNRelease (s : State) : Host.Outcome State Fault Refusal :=
  if s.inputs.rstLow then .next (fullReset (s.onInputs fun i => { i with rstLow := false })) else .next s

end Sys2Proof.Machine
end

