-- ==== Sys2Proof/Machine/TimerCommands.lean ====
section
/-! DEFINITION. The meanings of the running out of the timers of the engine, the claims, the steps and the silence supervision. -/

namespace Sys2Proof.Machine

/-- SILENCE_TIMER_EXPIRE: the timer has run out and stops; the cause SILENCE arises (spec R181 b, R182). -/
def execSilenceTimerExpire (s : State) : Host.Outcome State Fault Refusal :=
  expiry s.protection.timer (fun s => raiseCause causeSilence (s.onProtection fun p => { p with timer := none })) s

/-- BREAK_PHASE_END: the make phase starts, or the commit completes (spec R34, R35, R41 a). -/
def execBreakPhaseEnd (s : State) : Host.Outcome State Fault Refusal :=
  match s.engine.flight with
  | none => .next s
  | some t => if t.phase = .breaking then expiry (some t.remaining) (endBreak t) s else .next s

/-- MAKE_PHASE_END: the commit completes (spec R36). -/
def execMakePhaseEnd (s : State) : Host.Outcome State Fault Refusal :=
  match s.engine.flight with
  | none => .next s
  | some t => if t.phase = .making then expiry (some t.remaining) (completeFlight t) s else .next s

/-- The commit of a place leaves the queue by its hold timer (spec R31). -/
def expireHold (p : Place) (s : State) : State :=
  match takePlace p s.engine.queue with
  | none => s
  | some (c, rest) => expireCommit c (s.onEngine fun e => { e with queue := rest })

/-- HOLD_TIMER_EXPIRE (spec R31). -/
def execHoldTimerExpire (p : Place) (s : State) : Host.Outcome State Fault Refusal :=
  expiry ((takePlace p s.engine.queue).map fun r => r.1.remaining) (expireHold p) s

/-- CLAIM_WAIT_TIMER_EXPIRE: the waiting site leaves the list, and its step fails (spec R48). -/
def execClaimWaitTimerExpire (i : Site) (s : State) : Host.Outcome State Fault Refusal :=
  expiry s.claims.timers[i] (fun s => failStep i .claimTimeout (leaveWaits i s)) s

/-- The time left to a step in a phase, by one of its timers; none where no step of the site is in that phase. -/
def State.stepTimer (s : State) (i : Site) (phase : Phase) (timer : StepContext → Option Nat) : Option Nat :=
  match s.runs[i].ctx with
  | some c => if c.phase = phase then timer c else none
  | none => none

/-- SETTLE_TIMER_END: the step enters TRIGGER (spec R84). -/
def execSettleTimerEnd (i : Site) (s : State) : Host.Outcome State Fault Refusal :=
  expiry (s.stepTimer i .settle StepContext.settleTimer)
    (State.onCtx i fun c => { c with phase := .trigger, settleTimer := none }) s

/-- COLLECT_TIMER_EXPIRE (spec R88). -/
def execCollectTimerExpire (i : Site) (s : State) : Host.Outcome State Fault Refusal :=
  expiry (s.stepTimer i .collect StepContext.collectTimer)
    (fun s => match s.runs[i].ctx with
      | some c => collectExpired i c s
      | none => s) s

end Sys2Proof.Machine
end

