-- ==== Sys2Proof/Machine/TrunkCommands.lean ====
section
/-! DEFINITION. The meanings of the trunk's own commands: a frame arrives, the transmitter is free. -/

namespace Sys2Proof.Machine

/-- TRUNK_FRAME_RECEIVE (spec R167, R168). -/
def execTrunkFrameReceive (bytes : List Byte) (s : State) : Host.Outcome State Fault Refusal := event (receiveTrunk bytes) s

/-- TRANSMIT_CHOICE: the frame sent before is finished. The end of the RESET FULL response is RESET_FULL_EXECUTE, not this command
(spec R176, R178; log 14). A step that waits in JUDGE takes the places that a RES frame frees in this event, as R127 says, also where an
ABORT of the same instant comes next (the model's choice, log 24). -/
def execTransmitChoice (s : State) : Host.Outcome State Fault Refusal := if s.sendingReset then .next s else event transmit s

end Sys2Proof.Machine
end

