-- ==== Sys2Proof/Machine/Dispatch.lean ====
section
/-! DEFINITION. One arm for each command. -/

namespace Sys2Proof.Machine

def exec (i : Instr) (s : State) : Host.Outcome State Fault Refusal :=
  match i with
  | .trunkFrameReceive bytes => Sys2Proof.Machine.execTrunkFrameReceive bytes s
  | .badRequest tag payload => Sys2Proof.Machine.execBadRequest tag payload s
  | .nop tag => Sys2Proof.Machine.execNop tag s
  | .readStatus tag clear => Sys2Proof.Machine.execReadStatus tag clear s
  | .writeRelayTypeTable tag entries => Sys2Proof.Machine.execWriteRelayTypeTable tag entries s
  | .writeBusTable tag entries => Sys2Proof.Machine.execWriteBusTable tag entries s
  | .writeSiteTable tag entries => Sys2Proof.Machine.execWriteSiteTable tag entries s
  | .writeInstrumentTable tag entries => Sys2Proof.Machine.execWriteInstrumentTable tag entries s
  | .writeChannelTable tag entries => Sys2Proof.Machine.execWriteChannelTable tag entries s
  | .writeLimitTable tag entries => Sys2Proof.Machine.execWriteLimitTable tag entries s
  | .writePatchTable tag entries => Sys2Proof.Machine.execWritePatchTable tag entries s
  | .writeStepTable tag entries => Sys2Proof.Machine.execWriteStepTable tag entries s
  | .readTable tag table first count => Sys2Proof.Machine.execReadTable tag table first count s
  | .setLanes tag settings => Sys2Proof.Machine.execSetLanes tag settings s
  | .patch tag override holdLimit ops => Sys2Proof.Machine.execPatch tag override holdLimit ops s
  | .readMatrix tag group => Sys2Proof.Machine.execReadMatrix tag group s
  | .verifyMatrix tag group expected care => Sys2Proof.Machine.execVerifyMatrix tag group expected care s
  | .start tag sites => Sys2Proof.Machine.execStart tag sites s
  | .halt tag sites => Sys2Proof.Machine.execHalt tag sites s
  | .resume tag sites => Sys2Proof.Machine.execResume tag sites s
  | .abort tag sites panel => Sys2Proof.Machine.execAbort tag sites panel s
  | .credit tag site amount => Sys2Proof.Machine.execCredit tag site amount s
  | .readSite tag sites => Sys2Proof.Machine.execReadSite tag sites s
  | .setTaps tag settings => Sys2Proof.Machine.execSetTaps tag settings s
  | .takeTaps tag => Sys2Proof.Machine.execTakeTaps tag s
  | .setSilence tag setting => Sys2Proof.Machine.execSetSilence tag setting s
  | .enterSafe tag => Sys2Proof.Machine.execEnterSafe tag s
  | .clearSafe tag => Sys2Proof.Machine.execClearSafe tag s
  | .resetRun tag => Sys2Proof.Machine.execResetRun tag s
  | .resetFull tag => Sys2Proof.Machine.execResetFull tag s
  | .resetFullExecute => Sys2Proof.Machine.execResetFullExecute s
  | .powerOn => Sys2Proof.Machine.execPowerOn s
  | .rstNAssert => Sys2Proof.Machine.execRstNAssert s
  | .rstNRelease => Sys2Proof.Machine.execRstNRelease s
  | .transmitChoice => Sys2Proof.Machine.execTransmitChoice s
  | .safeReqAssert => Sys2Proof.Machine.execSafeReqAssert s
  | .safeReqRelease => Sys2Proof.Machine.execSafeReqRelease s
  | .silenceTimerExpire => Sys2Proof.Machine.execSilenceTimerExpire s
  | .presentChange site level => Sys2Proof.Machine.execPresentChange site level s
  | .breakPhaseEnd => Sys2Proof.Machine.execBreakPhaseEnd s
  | .makePhaseEnd => Sys2Proof.Machine.execMakePhaseEnd s
  | .holdTimerExpire place => Sys2Proof.Machine.execHoldTimerExpire place s
  | .claimWaitTimerExpire site => Sys2Proof.Machine.execClaimWaitTimerExpire site s
  | .settleTimerEnd site => Sys2Proof.Machine.execSettleTimerEnd site s
  | .collectTimerExpire site => Sys2Proof.Machine.execCollectTimerExpire site s
  | .laneFrameReceive lane fromLoop bytes => Sys2Proof.Machine.execLaneFrameReceive lane fromLoop bytes s
  | .cardConditionChange lane condition => Sys2Proof.Machine.execCardConditionChange lane condition s
  | .wakeWindowExpire lane => Sys2Proof.Machine.execWakeWindowExpire lane s
  | .alignWindowExpire lane => Sys2Proof.Machine.execAlignWindowExpire lane s
  | .lostWindowExpire lane => Sys2Proof.Machine.execLostWindowExpire lane s
  | .retryTimeExpire lane => Sys2Proof.Machine.execRetryTimeExpire lane s
  | .drainLimitExpire lane => Sys2Proof.Machine.execDrainLimitExpire lane s
  | .quietTimerReach lane => Sys2Proof.Machine.execQuietTimerReach lane s
  | .loopWindowExpire lane => Sys2Proof.Machine.execLoopWindowExpire lane s
  | .laneSendBegin lane => Sys2Proof.Machine.execLaneSendBegin lane s

end Sys2Proof.Machine
end

