-- ==== Sys2Proof/WellFormed.lean ====
section
/-! DEFINITION. Which operands a command can have. -/

namespace Sys2Proof

open Machine

/-- Whether a request can be laid out: its counts fit in their bytes, its payload in a frame, and a table without a layout of its own
is not one of the eight that are written (spec TABLE 10-13, R167 b). -/
def Machine.Request.wf (r : Request) : Bool :=
  decide (r.payload.length ≤ Config.maxPayload) &&
    match r with
    | .writeRelayTypes es => decide (es.length ≤ 255)
    | .writeBuses es => decide (es.length ≤ 255)
    | .writeSites es => decide (es.length ≤ 255)
    | .writeInstruments es => decide (es.length ≤ 255)
    | .writeChannels es => decide (es.length ≤ 255)
    | .writeLimits es => decide (es.length ≤ 255)
    | .writePatches es => decide (es.length ≤ 255) && es.all fun e => decide (e.ops.length ≤ 255)
    | .writeSteps es => decide (es.length ≤ 255)
    | .writeNoTable t => decide (t = 0 ∨ 9 ≤ t.toNat)
    | .setLanes es => decide (es.length ≤ 255)
    | .setTaps es => decide (es.length ≤ 255)
    | .patch _ _ ops => decide (ops.length ≤ 255)
    | _ => true

/-- The tag and the request that a command row of TABLE 10-2 stands for; none for the other rows. -/
def Instr.request : Instr → Option (Tag × Request)
  | .trunkFrameReceive _ => none
  | .badRequest _ _ => none
  | .nop t => some (t, .nop)
  | .readStatus t c => some (t, .readStatus c)
  | .writeRelayTypeTable t es => some (t, .writeRelayTypes es)
  | .writeBusTable t es => some (t, .writeBuses es)
  | .writeSiteTable t es => some (t, .writeSites es)
  | .writeInstrumentTable t es => some (t, .writeInstruments es)
  | .writeChannelTable t es => some (t, .writeChannels es)
  | .writeLimitTable t es => some (t, .writeLimits es)
  | .writePatchTable t es => some (t, .writePatches es)
  | .writeStepTable t es => some (t, .writeSteps es)
  | .readTable t k f n => some (t, .readTable k f n)
  | .setLanes t es => some (t, .setLanes es)
  | .patch t o h ops => some (t, .patch o h ops)
  | .readMatrix t g => some (t, .readMatrix g)
  | .verifyMatrix t g e c => some (t, .verifyMatrix g e c)
  | .start t m => some (t, .start m)
  | .halt t m => some (t, .halt m)
  | .resume t m => some (t, .resume m)
  | .abort t m p => some (t, .abort m p)
  | .credit t i a => some (t, .credit i a)
  | .readSite t m => some (t, .readSite m)
  | .setTaps t es => some (t, .setTaps es)
  | .takeTaps t => some (t, .takeTaps)
  | .setSilence t x => some (t, .setSilence x)
  | .enterSafe t => some (t, .enterSafe)
  | .clearSafe t => some (t, .clearSafe)
  | .resetRun t => some (t, .resetRun)
  | .resetFull t => some (t, .resetFull)
  | .resetFullExecute => none
  | .powerOn => none
  | .rstNAssert => none
  | .rstNRelease => none
  | .transmitChoice => none
  | .safeReqAssert => none
  | .safeReqRelease => none
  | .silenceTimerExpire => none
  | .presentChange _ _ => none
  | .breakPhaseEnd => none
  | .makePhaseEnd => none
  | .holdTimerExpire _ => none
  | .claimWaitTimerExpire _ => none
  | .settleTimerEnd _ => none
  | .collectTimerExpire _ => none
  | .laneFrameReceive _ _ _ => none
  | .cardConditionChange _ _ => none
  | .wakeWindowExpire _ => none
  | .alignWindowExpire _ => none
  | .lostWindowExpire _ => none
  | .retryTimeExpire _ => none
  | .drainLimitExpire _ => none
  | .quietTimerReach _ => none
  | .loopWindowExpire _ => none
  | .laneSendBegin _ => none

/-- The header and the CRC of a whole frame take 10 bytes (spec R179). -/
def wholeFrame (bytes : List Byte) : Bool := decide (10 ≤ bytes.length)

/-- Whether a command has operands that its row admits: whole frames, requests that can be laid out, and for BAD_REQUEST a payload that
no layout admits (spec R133, R167, R169). -/
def Instr.wf (i : Instr) : Bool :=
  match i.request with
  | some (_, r) => r.wf
  | none =>
    match i with
    | .trunkFrameReceive bytes => wholeFrame bytes
    | .laneFrameReceive _ _ bytes => wholeFrame bytes
    | .badRequest _ payload => decide (payload.length ≤ Config.maxPayload) && (readRequest payload).isNone
    | _ => true

end Sys2Proof
end

