-- ==== Sys2Proof/Safety.lean ====
section
/-! DEFINITION. The terms in which statements about the part are made: states in which nothing is left to do, the answers of the
management unit, and the properties that every step keeps. -/

namespace Sys2Proof.Machine

/-! ### Between events -/

/-- No block has anything to do without waiting: no step can go on, the engine begins nothing, the head of the input buffer stays, and
no event is left to raise (spec R29, R80 a, R168). -/
structure State.Quiet (s : State) : Prop where
  sites : ∀ i : Site, siteReady s i = false
  engine : engineReady s = false
  drain : drainReady s = false
  due : s.due = []

/-- RST-N is high, and the management unit would take a request that arrives now at once: nothing waits in the input buffer or in the
response queue, and no RESET FULL has been answered (spec R168, R169, R178). -/
structure State.Listening (s : State) : Prop where
  running : s.inputs.rstLow = false
  input : s.trunk.input = []
  responses : s.trunk.responses = []
  opened : s.trunk.closed = false

/-- The state after the arrival of a valid frame: a running silence timer is restarted from the full setting, in µs (spec R167, R182). -/
def State.heard (s : State) : State :=
  { s with protection := { s.protection with timer := s.protection.timer.map fun _ => s.protection.setting * 100000 } }

/-- The state with one more response: an RSP frame to the host with the given tag and payload at the tail of the queue (spec R169). -/
def State.answer (s : State) (tag : Tag) (payload : List Byte) : State :=
  { s with
    trunk := { s.trunk with
      responses := s.trunk.responses
        ++ [{ dest := 250, source := 240, kind := 0x41, flags := 0, tag := tag, payload := payload }] } }

/-- The state with one more event, which takes the event sequence and enters the buffer, or is lost (spec R175). -/
def State.eventRaised (s : State) (e : Event) : State :=
  { s with
    trunk := { s.trunk with
      events := if s.trunk.events.length < 16 then s.trunk.events ++ [(s.trunk.eventSeq, e)] else s.trunk.events
      eventsLost := s.trunk.eventsLost || decide (16 ≤ s.trunk.events.length)
      eventSeq := (s.trunk.eventSeq + 1) % 4096 } }

/-- Between events: RST-N is high, no block has anything to do, and the management unit takes nothing (spec R168, R169, R178). -/
structure State.AtRest (s : State) : Prop where
  quiet : s.Quiet
  running : s.inputs.rstLow = false
  untaken : s.trunk.input = [] ∨ s.trunk.responses ≠ [] ∨ s.trunk.closed = true

/-- The host's management frame with a tag and a payload (spec TABLE 10-5, TABLE 10-7). -/
def hostFrame (tag : Tag) (payload : List Byte) : Frame :=
  { dest := 240, source := 250, kind := 0x40, flags := 0, tag := tag, payload := payload }

/-- The commands that act while RST-N is held low (spec R178; log 18). -/
def actsInReset : Instr → Bool
  | .resetFullExecute | .powerOn | .rstNAssert | .rstNRelease => true
  | .safeReqAssert | .safeReqRelease | .presentChange _ _ | .cardConditionChange _ _ => true
  | _ => false

/-! ### Tables in statements -/

/-- What a table holds at an index after the entries of a request: the last entry of that index, or what it held (spec R170). -/
def lastEntry {α β : Type} {n : Nat} (read : α → Option (Fin n × β)) (entries : List α) (i : Fin n) (old : β) : β :=
  match ((entries.filterMap read).filter fun e => decide (e.1 = i)).getLast? with
  | some e => e.2
  | none => old

/-- The status of a table write: BAD_VALUE for no entries, else the status of the first entry that fails, else OK (spec R170). -/
def writeStatus {α : Type} (status : α → Byte) (entries : List α) : Byte :=
  match entries with
  | [] => 2
  | _ => ((entries.map status).find? fun b => decide (b ≠ 0)).getD 0

/-- The state after a table write with a status: the tables change only with OK (spec R170). -/
def State.tablesWritten (s : State) (tag : Tag) (status : Byte) (t : Tables) : State :=
  (if status = 0 then { s.heard with tables := t } else s.heard).answer tag [2, status]

/-- No site runs, no commit waits and no transition is in flight (spec R3, R5). -/
def State.MatrixIdle (s : State) : Prop :=
  (∀ i : Site, s.runs[i].state = .idle) ∧ s.engine.queue = [] ∧ s.engine.flight = none

/-- How many entries a table has; 0 for an id that names no table (spec TABLE 10-12). -/
def tableSize (table : Byte) : Nat :=
  match table.toNat with
  | 1 => 4
  | 2 => 8
  | 3 => 8
  | 4 => 12
  | 5 => 96
  | 6 => 512
  | 7 => 256
  | 8 => 1024
  | 9 => 4
  | _ => 0

/-- The bytes of one entry of a table as READ TABLE lays it out (spec TABLE 10-12). -/
def entryBytes (s : State) (table : Byte) (k : Nat) : List Byte :=
  match table.toNat with
  | 1 => if h : k < 4 then relayBytes ⟨k, h⟩ s.tables.relays[k] else []
  | 2 => if h : k < 8 then busBytes ⟨k, h⟩ s.tables.buses[k] else []
  | 3 => if h : k < 8 then siteBytes ⟨k, h⟩ s.tables.sites[k] else []
  | 4 => if h : k < 12 then instrumentBytes ⟨k, h⟩ s.tables.instruments[k] else []
  | 5 => if h : k < 96 then channelBytes ⟨k, h⟩ s.tables.channels[k] else []
  | 6 => if h : k < 512 then limitBytes ⟨k, h⟩ s.tables.limits[k] else []
  | 7 => if h : k < 256 then patchBytes ⟨k, h⟩ s.tables.patches[k] else []
  | 8 => if h : k < 1024 then stepBytes ⟨k, h⟩ s.tables.steps[k] else []
  | 9 => if h : k < 4 then tapSettingBytes ⟨k, h⟩ s.taps[k] else []
  | _ => []

/-! ### Effects in statements -/

/-- The transition flags of some buses rise, and a step that collects on a bus whose flag was down is disturbed (spec R37, R91). -/
def State.flagged (s : State) (buses : BusSet) : State :=
  { s with
    engine := { s.engine with flags := s.engine.flags ||| buses }
    runs := Vector.ofFn fun i : Site =>
      { s.runs[i] with
        ctx := s.runs[i].ctx.map fun c =>
          { c with
            disturbed := c.disturbed
              || decide (c.phase = .collect ∧ ∃ b : Bus, c.attach = some b ∧ buses.getLsbD b ∧ ¬s.engine.flags.getLsbD b) } } }

/-- A break phase starts: the opening set leaves the image and the driver chain, and its buses are flagged (spec R2, R34). -/
def State.breaking (s : State) (kind : FlightKind) (opening closing : Crosspoints) : State :=
  let image := s.matrix.image &&& ~~~opening
  let time := relayTime s.tables RelayType.release (busesIn opening)
  { s with
    matrix := { image := image, chain := image, drivers := image }
    engine := { s.engine with
      flight := some { kind := kind, opening := opening, closing := closing, phase := .breaking, remaining := time, cut := false } }
    }.flagged (busesIn opening)

/-- A make phase starts: the closing set joins the image and the driver chain, and its buses are flagged (spec R2, R35). -/
def State.making (s : State) (kind : FlightKind) (opening closing : Crosspoints) : State :=
  let image := s.matrix.image ||| closing
  let time := relayTime s.tables RelayType.operate (busesIn closing)
  { s with
    matrix := { image := image, chain := image, drivers := image }
    engine := { s.engine with
      flight := some { kind := kind, opening := opening, closing := closing, phase := .making, remaining := time, cut := false } }
    }.flagged (busesIn closing)

/-- The engine is free: its transition is over and its flags are down (spec R36). -/
def State.freed (s : State) : State := { s with engine := { s.engine with flight := none, flags := 0 } }

/-- A run's summary (spec TABLE 7-2). -/
def summaryOf (r : Run) (cause : EndCause) : Summary :=
  { run := r.number, cause := cause, pass := r.pass, marginal := r.marginal, fail := r.fail, worst := r.worst,
    firstFail := r.firstFail, stepsRun := r.stepsRun }

/-- A host frame that could not be forwarded: bounced, or counted where the bounce queue is full (spec R157). -/
def State.bounced (s : State) (reason : BounceReason) (f : Frame) : State :=
  if s.trunk.bounces.length < 16 then
    { s with trunk := { s.trunk with bounces := s.trunk.bounces ++ [{ tag := f.tag, reason := reason, node := f.dest }] } }
  else { s with counters := { s.counters with forwardDrops := min (s.counters.forwardDrops + 1) 65535 } }

/-- A frame that the part hands to a lane: behind the part frames of an UP lane; where the queue is full it takes the place of the youngest
host frame, which bounces, and without a host frame it is discarded (spec R158). -/
def State.laneSent (s : State) (l : LaneId) (kind : Byte) (tag : Tag) (payload : List Byte) : State :=
  let f : Frame := { dest := s.tables.instruments[l].node, source := 240, kind := kind, flags := 0, tag := tag, payload := payload }
  let x := s.lanes[l]
  if x.state ≠ .up then s
  else if x.partFrames.length + x.hostFrames.length < 8 then
    { s with lanes := s.lanes.set l { x with partFrames := x.partFrames ++ [f] } }
  else match x.hostFrames.getLast? with
    | none => s
    | some youngest =>
      { s with lanes := s.lanes.set l { x with partFrames := x.partFrames ++ [f], hostFrames := x.hostFrames.dropLast }
        }.bounced .laneFull youngest

/-- The triggers of those of some sites whose steps collect are withdrawn by CAN frames, in ascending order of the sites (spec R72 d,
R76; their order is that of R71 at an abort by the host or a removed board, and else the model's choice, log 23). -/
def State.withdrawn (s : State) (gone : Site → Bool) : State :=
  ((List.finRange 8).filter gone).foldl (fun t i =>
    match s.runs[i].ctx with
    | none => t
    | some c =>
      match c.phase, c.entry.instrument, c.tag with
      | .collect, some l, some tag => t.laneSent l 0x31 tag [BitVec.ofNat 8 c.entry.channel]
      | _, _, _ => t) s

/-! ### Claims in statements -/

/-- The sites of a claim record: the holder, and those that wait for the instrument (spec R43). -/
def ClaimRecord.sites (r : ClaimRecord) : List Site := r.holder.toList ++ r.waits

/-- Every site stands at most once in the claim records, and sites wait only for an instrument that is held (spec R43, R44). -/
structure State.ClaimsOrdered (s : State) : Prop where
  once : ∀ (i : Site) (k l : LaneId), i ∈ s.claims.records[k].sites → i ∈ s.claims.records[l].sites → k = l
  distinct : ∀ l : LaneId, s.claims.records[l].sites.Nodup
  held : ∀ l : LaneId, s.claims.records[l].holder = none → s.claims.records[l].waits = []

/-- Every site that waits for an instrument is in the CLAIM phase of its step (spec R46). -/
def State.WaitersClaim (s : State) : Prop :=
  ∀ (l : LaneId) (i : Site), i ∈ s.claims.records[l].waits → ∃ c, s.runs[i].ctx = some c ∧ c.phase = .claim

/-- A claim record when some sites have given up: those left move up (spec R47, R51). -/
def ClaimRecord.without (r : ClaimRecord) (gone : Site → Bool) : ClaimRecord :=
  let left := r.sites.filter fun i => !gone i
  { holder := left.head?, waits := left.tail }

/-- The site that is handed the instrument when some sites give up, if there is one (spec R47). -/
def ClaimRecord.handed (r : ClaimRecord) (gone : Site → Bool) : Option Site :=
  if (r.without gone).holder = r.holder then none else (r.without gone).holder

/-- Some sites have given up their claims and their places in wait lists; a site that is handed an instrument enters APPLY, and its claim
wait timer stops, as do those of the sites that waited (spec R47, R50, R51). -/
def State.claimsLeft (s : State) (gone : Site → Bool) : State :=
  { s with
    claims :=
      { records := Vector.ofFn fun l : LaneId => s.claims.records[l].without gone
        timers := Vector.ofFn fun i : Site =>
          if ∃ l : LaneId, i ∈ s.claims.records[l].waits ∧ (gone i ∨ s.claims.records[l].handed gone = some i) then none
          else s.claims.timers[i] }
    runs := Vector.ofFn fun i : Site =>
      if ∃ l : LaneId, s.claims.records[l].handed gone = some i then
        { s.runs[i] with ctx := s.runs[i].ctx.map fun c => { c with phase := .apply } }
      else s.runs[i] }

/-- A step whose CLAIM is over can apply: its site's place is free for its patch, or it has no patch and does not trigger on a lane that
is not UP (spec R83 to R85). -/
def State.CanApply (s : State) (i : Site) (e : StepEntry) : Prop :=
  match e.patch with
  | some _ => (∀ c ∈ s.engine.queue, c.place ≠ .site i) ∧ s.engine.flight.map Transition.kind ≠ some (.step (some i))
  | none => ∀ l : LaneId, e.instrument = some l → e.settle ≠ 0 ∨ s.lanes[l].state = .up

/-- When some sites give up, no instrument is handed on; or one is, to the given site, whose step can apply. -/
def State.Hands (s : State) (gone : Site → Bool) (next : Option Site) : Prop :=
  match next with
  | none => ∀ l : LaneId, s.claims.records[l].handed gone = none
  | some j =>
    (∃ l : LaneId, ∀ k : LaneId, s.claims.records[k].handed gone = if k = l then some j else none)
    ∧ s.runs[j].state = .running
    ∧ ∃ c, s.runs[j].ctx = some c ∧ c.entry.instrument ≠ none ∧ s.CanApply j c.entry

/-- A site's step settles (spec R84). -/
def State.settling (s : State) (i : Site) : State :=
  { s with
    runs := s.runs.set i
      { s.runs[i] with
        ctx := s.runs[i].ctx.map fun c =>
          { c with
            phase := .settle
            settleTimer := some (if c.entry.instrument = none then max c.entry.settle 1000 else c.entry.settle) } } }

/-- A step triggers the instrument of a lane: the sequence, the captures and the TRG frame (spec R86, R91 a). -/
def State.triggered (s : State) (i : Site) (c : StepContext) (l : LaneId) : State :=
  let channel := s.tables.channels[channelId l c.entry.channel]
  let seq := (s.runs[i].seq + 1) % 4096
  let tag : Tag := BitVec.ofNat 16 (0x8000 + 4096 * i + seq)
  { s with
    runs := s.runs.set i
      { s.runs[i] with
        seq := seq
        ctx := some { c with
          phase := .collect, settleTimer := none, tag := some tag, attach := channel.attach, cal := some channel.cal
          disturbed := c.disturbed || decide (∃ b : Bus, channel.attach = some b ∧ s.engine.flags.getLsbD b = true)
          collectTimer := some (c.entry.collect * 1000) } } }.laneSent l 0x30 tag
    ([BitVec.ofNat 8 c.entry.channel, BitVec.ofNat 8 (c.entry.sampleCode + 1)] ++ bytes2 c.entry.setup)

/-- The step of a site has nothing left to apply: it settles, and with an instrument and no time to settle it triggers (spec R84, R85). -/
def State.applied (s : State) (i : Site) : State :=
  match s.runs[i].ctx with
  | none => s
  | some c =>
    match c.entry.instrument with
    | none => s.settling i
    | some l => if c.entry.settle = 0 then s.triggered i c l else s.settling i

/-- The step of a site is past its CLAIM: its STEP commit enters the queue, with the site's hold limit; or it has no patch to apply
(spec R83, R24). -/
def State.granted (s : State) (i : Site) : State :=
  match s.runs[i].ctx with
  | none => s
  | some c =>
    match c.entry.patch with
    | none => s.applied i
    | some p =>
      { s with
        runs := s.runs.set i { s.runs[i] with ctx := some { c with phase := .apply } }
        engine := { s.engine with
          queue := s.engine.queue
            ++ [{ place := .site i, work := .step p, holdLimit := s.tables.sites[i].holdLimit,
                  remaining := s.tables.sites[i].holdLimit * 1000 }] } }

/-- A site that was handed an instrument, if there is one, applies its step (spec R47 b, R82 c). -/
def State.handedOn (s : State) (next : Option Site) : State :=
  match next with
  | none => s
  | some j => s.granted j

/-- The context of a step that has done nothing but enter a phase (spec TABLE 5-2, R81). -/
def State.atStep (s : State) (n : StepId) (phase : Phase) (settle : Option Nat) : StepContext :=
  { index := n, entry := s.tables.steps[n], phase := phase, cause := .ok, tag := none, attach := none, cal := none, samples := [],
    short := false, extra := false, disturbed := false, limit := none, placed := 0, anyFail := false, settleTimer := settle,
    collectTimer := none }

/-- A site goes on to a step, with the given run record: the step is past its CLAIM where it has no instrument or is granted it, and waits in
CLAIM at the tail of the wait list, within the site's claim wait, where another site holds it (spec R81 to R83, R45, R46). -/
def State.linked (s : State) (i : Site) (n : StepId) (r : Run) : State :=
  let t := { s with runs := s.runs.set i { r with step := n, ctx := some (s.atStep n .claim none) } }
  match s.tables.steps[n].instrument with
  | none => t.granted i
  | some l =>
    let x := s.claims.records[l]
    if x.holder = none ∨ x.holder = some i then
      State.granted { t with claims := { s.claims with records := s.claims.records.set l { x with holder := some i } } } i
    else
      { t with
        claims :=
          { records := s.claims.records.set l { x with waits := x.waits ++ [i] }
            timers := s.claims.timers.set i (some (s.tables.sites[i].claimWait * 1000)) } }

/-- A site would be granted the instrument of a step, or the step has none (spec R45). -/
def State.Grants (s : State) (i : Site) (n : StepId) : Prop :=
  ∀ l : LaneId, s.tables.steps[n].instrument = some l → s.claims.records[l].holder = none ∨ s.claims.records[l].holder = some i

/-- A step that a site goes on to does not fail at once: its instrument is there and is for the site, and where it is granted, the step can
apply (spec R45, R83 to R85). -/
structure State.Enters (s : State) (i : Site) (n : StepId) : Prop where
  instrument : ∀ l : LaneId, s.tables.steps[n].instrument = some l → s.tables.instruments[l].node ≠ 0
    ∧ (s.tables.instruments[l].policy = none ∨ s.tables.instruments[l].policy = some i)
  apply : s.Grants i n → s.CanApply i s.tables.steps[n]

/-- Why a site's claim request is refused (spec R45, TABLE 3-1). -/
def State.Refuses (s : State) (i : Site) (l : LaneId) (cause : Cause) : Prop :=
  (cause = .noInstrument ∧ s.tables.instruments[l].node = 0)
  ∨ (cause = .foreign ∧ s.tables.instruments[l].node ≠ 0 ∧ s.tables.instruments[l].policy ≠ none
    ∧ s.tables.instruments[l].policy ≠ some i)

/-- A step that a site goes on to settles, or waits for its instrument. -/
def State.Rests (s : State) (i : Site) (n : StepId) : Prop :=
  s.Grants i n → s.tables.steps[n].patch = none ∧ (s.tables.steps[n].instrument = none ∨ s.tables.steps[n].settle ≠ 0)

/-- The engine begins nothing: a transition is in flight, or no opening is pending and every commit is held (spec R29, R40). -/
def State.Idles (s : State) : Prop :=
  s.engine.flight ≠ none ∨ (s.engine.openings = [] ∧ ∀ x ∈ s.engine.queue, held s x = true)

/-! ### Aborts and SAFE in statements -/

/-- The sites with an end cause are aborted: they are IDLE, their summaries stand, their claims are given up, CAN frames withdraw their
triggers, their STEP commits are gone or have no origin, and where `opens` and the option say so their SITE-OPENs wait (spec R72). -/
def State.stopped (s : State) (why : Site → Option EndCause) (opens : Bool) : State :=
  let t := (s.withdrawn fun i => (why i).isSome).claimsLeft fun i => (why i).isSome
  { t with
    runs := Vector.ofFn fun i : Site =>
      if why i = none then t.runs[i] else { s.runs[i] with state := .idle, pause := false, ctx := none }
    results := Vector.ofFn fun i : Site =>
      match why i with
      | none => s.results[i]
      | some cause => { s.results[i] with summary := some (summaryOf s.runs[i] cause) }
    engine := { s.engine with
      queue := (s.engine.queue.filter fun c =>
          match c.place, c.work with
          | .site i, .step _ => decide (why i = none)
          | _, _ => true)
        ++ ((List.finRange 8).filter fun i : Site => decide (why i ≠ none) && opens && s.tables.sites[i].openOnAbort).map fun i : Site =>
            { place := .site i, work := .siteOpen, holdLimit := s.tables.sites[i].holdLimit,
              remaining := s.tables.sites[i].holdLimit * 1000 }
      flight := s.engine.flight.map fun t =>
        match t.kind with
        | .step (some i) => if why i = none then t else { t with kind := .step none }
        | _ => t } }

/-- The tags of the HOST commits that wait. -/
def State.hostTags (s : State) : List Tag :=
  s.engine.queue.filterMap fun c => match c.work with
    | .host tag _ _ => some tag
    | _ => none

/-- Waiting PATCH requests answered CANCELLED, in an order (spec R32, R171). -/
def State.cancelled (s : State) (tags : List Tag) : State := tags.foldl (fun t g => t.answer g [0x05, 12]) s

/-- What the entry to SAFE leaves before the SAFE-OPEN: sites aborted, the commit queue empty, a break phase without a make phase to
come, CAN frames in ascending order of the sites, OFF frames for the UP lanes with an instrument, behind them and in ascending order of the
lanes (both orders: log 23), and the event
(spec R183, R185). The waiting PATCH requests are answered in the order given; n is the count of free choices (log 5). -/
def State.safeEntered (s : State) (causes : CauseSet) (answers : List Tag) (n : Nat) : State :=
  let t := s.stopped (fun i => if s.runs[i].state = .idle then none else some .safe) false
  let u := (List.finRange 12).foldl
    (fun t l => if s.tables.instruments[l].node ≠ 0 then t.laneSent l 0x32 0 [] else t) (t.cancelled answers)
  State.eventRaised
    { u with
      protection := { s.protection with safe := true, causes := causes, openDone := false, timer := none }
      engine := { t.engine with
        queue := []
        flight := t.engine.flight.map fun f =>
          match f.phase, f.kind with
          | .making, _ => f
          | .breaking, .opening _ => f
          | .breaking, _ => { f with cut := true } }
      freeCount := n } (.safeEnter causes)

/-- The part after a full reset under input levels and line conditions, before the events of the reset (spec R178, R188). -/
def State.resetUnder (inputs : Inputs) (cards : LaneId → CardCondition) (n : Nat) (pending : List Instr) : State :=
  { State.reset with
    inputs := inputs
    lanes := Vector.ofFn fun l : LaneId => { State.reset.lanes[l] with card := cards l, called := decide (cards l = .answer) }
    protection := { State.reset.protection with causes := if inputs.safeReq then 0b0101 else 0b0001 }
    trunk := { State.reset.trunk with events := [], eventSeq := 0 }
    freeCount := n
    pending := pending }

/-- The status that START gives a site (spec R63). -/
def State.startCode (s : State) (i : Site) : Byte :=
  if s.protection.safe then 5
  else if s.runs[i].state ≠ .idle then 3
  else if s.inputs.present[i] = false then 6
  else if s.results[i].summary.isSome ∨ (∃ c ∈ s.engine.queue, c.place = .site i ∧ c.work = .siteOpen)
      ∨ s.engine.flight.map Transition.kind = some (.siteOpen i) then 4
  else 0

/-- A site's run ends: the site is IDLE, and the summary of the given run record stands (spec R69). -/
def State.runEnded (s : State) (i : Site) (r : Run) : State :=
  { s with
    runs := s.runs.set i { r with state := .idle, ctx := none }
    results := s.results.set i { s.results[i] with summary := some (summaryOf r .ended) } }

/-- A site pauses, with its event (spec R67). -/
def State.paused (s : State) (i : Site) (r : Run) (reason : PauseReason) : State :=
  { s with runs := s.runs.set i { r with state := .paused, pause := false, ctx := none } }.eventRaised (.sitePaused i r.step reason)

/-- A run record after one more record of a step (spec R70, TABLE 4-4). -/
def Run.counted (r : Run) (x : StepRecord) : Run :=
  { r with
    pass := if x.verdict.rank = 1 then min (r.pass + 1) 65535 else r.pass
    marginal := if x.verdict.rank = 2 then min (r.marginal + 1) 65535 else r.marginal
    fail := if x.verdict.rank = 3 then min (r.fail + 1) 65535 else r.fail
    worst := if r.worst.rank < x.verdict.rank then x.verdict else r.worst
    firstFail := if x.verdict.rank = 3 ∧ r.firstFail = none then some x.step else r.firstFail }

/-- The record of a step that failed (spec R96). -/
def failureRecord (run : Nat) (c : StepContext) (markAll : Bool) : StepRecord :=
  { run := run, step := c.index, series := 0, verdict := .noData, cause := c.cause, value := none, samplesUsed := 0, overrange := false,
    sat := false, short := false, disturbed := c.disturbed, extra := false, exponent := (c.cal.map Calibration.exponent).getD 0,
    limit := c.entry.limit, rawMean := none, mark := c.entry.mark || markAll }

/-- The record of a step that measured, from some of its samples (spec R93, R95). -/
def measuredRecord (run : Nat) (c : StepContext) (markAll : Bool) (samples : List Sample) (series : Nat) : StepRecord :=
  let j := judge samples (c.cal.getD { offset := 0, gain := 0, exponent := 0 }) c.limit c.short c.disturbed
  { run := run, step := c.index, series := series, verdict := j.verdict, cause := .ok, value := j.value, samplesUsed := samples.length,
    overrange := j.overrange, sat := j.sat, short := c.short, disturbed := c.disturbed, extra := c.extra,
    exponent := (c.cal.map Calibration.exponent).getD 0, limit := c.entry.limit, rawMean := if c.entry.raw then j.mean else none,
    mark := c.entry.mark || markAll }

/-- All the records that a step makes: one where it failed, one of all samples in AVERAGE mode, one for each sample in SERIES mode
(spec R92, R93, R96). -/
def StepContext.made (c : StepContext) (run : Nat) (markAll : Bool) : List StepRecord :=
  if c.cause ≠ .ok then [failureRecord run c markAll]
  else match c.entry.mode with
    | .average => [measuredRecord run c markAll c.samples 0]
    | .series => c.samples.zipIdx.map fun x => measuredRecord run c markAll [x.1] x.2

/-- A step that enters JUDGE with a cause: its timers have stopped, and its limit is captured (spec R80 d, R92). -/
def StepContext.judging (c : StepContext) (s : State) (cause : Cause) : StepContext :=
  { c with
    phase := .judge, cause := cause, limit := c.entry.limit.map fun k => s.tables.limits[k], settleTimer := none, collectTimer := none }

/-- A step that has placed some more of its records. -/
def StepContext.having (c : StepContext) (placed : List StepRecord) : StepContext :=
  { c with placed := c.placed + placed.length, anyFail := c.anyFail || placed.any fun x => decide (x.verdict.rank = 3) }

/-- The records that a step in JUDGE has still to place (spec R94). -/
def State.recordsLeft (s : State) (i : Site) (c : StepContext) : List StepRecord :=
  (c.made s.runs[i].number s.tables.sites[i].markAll).drop c.placed

/-- Those of them for which there are places now (spec R94). -/
def State.recordsNow (s : State) (i : Site) (c : StepContext) : List StepRecord :=
  (s.recordsLeft i c).take (32 - s.results[i].records.length)

/-- The step that follows at a RELEASE; none where the site pauses or the run ends (spec R66). -/
def State.follows (s : State) (i : Site) (c : StepContext) : Option StepId :=
  if s.runs[i].pause ∨ (c.entry.stopOnFail ∧ c.anyFail) then none else c.entry.next

/-- Whether a site keeps its claim from a step to the next: by KEEP, on the same instrument (spec R50, R97 a). -/
def State.keeps (s : State) (i : Site) (c : StepContext) : Bool :=
  c.entry.keep && match s.follows i c with
    | some n => decide (s.tables.steps[n].instrument = c.entry.instrument)
    | none => false

/-- A site has given up the claim of its step, unless it keeps it (spec R97, R50). -/
def State.unclaimed (s : State) (i : Site) (c : StepContext) : State :=
  if s.keeps i c then s else s.claimsLeft fun j => decide (j = i)

/-- A step is released: unless it keeps its claim, the instrument is free, or handed on to the given site; the site pauses, ends its run or
goes on to the next step (spec R97, R66). -/
def State.released (s : State) (i : Site) (c : StepContext) (next : Option Site) : State :=
  let r := { s.runs[i] with stepsRun := min (s.runs[i].stepsRun + 1) 65535 }
  let t := if s.keeps i c then s else (s.unclaimed i c).handedOn next
  match s.follows i c with
  | some n => t.linked i n r
  | none =>
    if s.runs[i].pause then t.paused i r .halt
    else if c.entry.stopOnFail ∧ c.anyFail then t.paused i r .stopOnFail
    else t.runEnded i r

/-- What a release meets: the claims are in order, the site has no claim but on its step's instrument, and the release frees no commit; the
instrument is handed on to the given site or to none; and a step that follows does not fail at once. Where one site goes on to a step while
another is handed the instrument, both steps settle or wait, since the order of the two is open. -/
structure State.ReleasesTo (s : State) (i : Site) (c : StepContext) (next : Option Site) : Prop where
  ordered : s.ClaimsOrdered
  own : ∀ l : LaneId, i ∈ s.claims.records[l].sites → c.entry.instrument = some l ∧ s.claims.records[l].holder = some i
  engine : (s.unclaimed i c).Idles
  hands : s.keeps i c = false → s.Hands (fun j => decide (j = i)) next
  link : ∀ n, s.follows i c = some n → (s.unclaimed i c).Enters i n
  both : ∀ n j, s.follows i c = some n → s.keeps i c = false → next = some j → (s.unclaimed i c).Rests i n
    ∧ ∀ x, s.runs[j].ctx = some x → x.entry.patch = none ∧ x.entry.settle ≠ 0

/-- A step in JUDGE places and counts as many of its records as there are places for; with the last of them it is released, and else it
waits for places (spec R94, R70). -/
def State.judged (s : State) (i : Site) (c : StepContext) (next : Option Site) : State :=
  let now := s.recordsNow i c
  let t := { s with
    results := s.results.set i { s.results[i] with records := s.results[i].records ++ now }
    runs := s.runs.set i { now.foldl Run.counted s.runs[i] with ctx := some (c.having now) } }
  if now = s.recordsLeft i c then t.released i (c.having now) next else t

/-- The site runs, and where its step places its last record it meets what a release meets. -/
structure State.Judges (s : State) (i : Site) (c : StepContext) (next : Option Site) : Prop where
  running : s.runs[i].state = .running
  last : s.recordsNow i c = s.recordsLeft i c → s.ReleasesTo i (c.having (s.recordsNow i c)) next

/-! ### Commits in statements -/

/-- A finished copy that differs from the image: its transition is in its break phase, or in its make phase where it opens nothing
(spec R18, R34, R35). -/
def State.launched (s : State) (kind : FlightKind) (copy : Crosspoints) : State :=
  let opening := s.matrix.image &&& ~~~copy
  let closing := copy &&& ~~~s.matrix.image
  if opening = 0 then s.making kind opening closing else s.breaking kind opening closing

/-- The finished copy of a commit (spec R9, R10, R11, R19). -/
def State.copyOf (s : State) (c : Commit) : Crosspoints :=
  match c.work, c.place with
  | .host _ _ ops, _ => ops.foldl (fun x op => op.apply 0 0 x) s.matrix.image
  | .step p, .site i =>
    s.tables.patches[p].foldl (fun x op => op.apply s.tables.sites[i].firstGroup s.tables.sites[i].skew x) s.matrix.image
  | .siteOpen, .site i => s.matrix.image &&& ~~~onAnyBus (extent s.tables.sites[i])
  | _, .host _ => s.matrix.image

/-- Why a commit is refused when it begins, if it is: a step's patch that reaches beyond the extent of its site, and the two checks on the
finished copy (spec R10, R15 to R17). -/
def State.refusal (s : State) (c : Commit) : Option Cause :=
  let beyond := match c.work, c.place with
    | .step p, .site i => s.tables.patches[p].any fun op => decide (s.tables.sites[i].groupCount ≤ op.group + op.rep)
    | _, _ => false
  match c.work with
  | .siteOpen => none
  | _ =>
    if beyond then some .patchRange
    else if hasExclusion s.tables.buses (s.copyOf c) then some .exclusion
    else if hasForeign s.tables.buses s.tables.sites (s.copyOf c) then some .busForeign
    else none

/-- The step of a site fails, and its record is made (spec R80 d). -/
def State.failed (s : State) (i : Site) (cause : Cause) (next : Option Site) : State :=
  match s.runs[i].ctx with
  | some c => s.judged i (c.judging s cause) next
  | none => s

/-- A commit that has left the queue begins: refused, complete with nothing to change, or in its first phase (spec R17, R33, R36). -/
def State.begun (s : State) (c : Commit) (next : Option Site) : State :=
  let copy := s.copyOf c
  match c.work, c.place, s.refusal c with
  | .host tag _ _, _, some cause => s.answer tag [0x05, if cause = .exclusion then 8 else 9]
  | .host tag _ _, _, none => if copy = s.matrix.image then s.answer tag [0x05, 0, 0, 0] else s.launched (.host tag) copy
  | .step _, .site i, some cause => s.failed i cause next
  | .step _, .site i, none => if copy = s.matrix.image then s.applied i else s.launched (.step (some i)) copy
  | .siteOpen, .site i, _ => if copy = s.matrix.image then s else s.launched (.siteOpen i) copy
  | _, .host _, _ => s

/-- A commit that has left the queue by its hold timer: its originator is told (spec R31). -/
def State.lapsed (s : State) (c : Commit) (next : Option Site) : State :=
  match c.work, c.place with
  | .host tag _ _, _ => s.answer tag [0x05, 11]
  | .step _, .site i => s.failed i .holdTimeout next
  | .siteOpen, .site i => s.eventRaised (.openExpired i)
  | _, .host _ => s

/-- The step of a STEP commit is in APPLY, and does not trigger at once on a lane that is not UP; where the commit ends with the given cause,
its record is made as `Judges` says. -/
def State.StepApplies (s : State) (c : Commit) (cause : Option Cause) (next : Option Site) : Prop :=
  ∀ (i : Site) (p : PatchId), c.work = .step p → c.place = .site i → s.runs[i].state = .running
    ∧ ∃ x, s.runs[i].ctx = some x ∧ x.phase = .apply
      ∧ (∀ l : LaneId, x.entry.instrument = some l → x.entry.settle ≠ 0 ∨ s.lanes[l].state = .up)
      ∧ ∀ y, cause = some y → s.Judges i (x.judging s y) next

/-- The state with another commit queue. -/
def State.withQueue (s : State) (q : List Commit) : State := { s with engine := { s.engine with queue := q } }

/-- The free engine chooses a commit, the oldest that is not held; a STEP commit's step is as `StepApplies` says, and where the engine
stays free after it, no further commit is there to begin (spec R29, R30 c). -/
structure State.Chooses (s : State) (before : List Commit) (c : Commit) (rest : List Commit) (next : Option Site) : Prop where
  free : s.engine.flight = none ∧ s.engine.flags = 0 ∧ s.engine.openings = []
  queue : s.engine.queue = before ++ c :: rest
  older : ∀ x ∈ before, held s x = true
  unheld : held s c = false
  applies : (s.withQueue (before ++ rest)).StepApplies c ((s.withQueue (before ++ rest)).refusal c) next
  stays : ((s.withQueue (before ++ rest)).begun c next).engine.flight = none →
    (∀ x ∈ rest, held s x = true) ∧ ((s.withQueue (before ++ rest)).begun c next).Idles

/-- The commit may expire in place of beginning: its step is as `StepApplies` says, and no further commit is there to begin after it
(spec R30 c, R31). -/
structure State.Lapses (s : State) (before : List Commit) (c : Commit) (rest : List Commit) (next : Option Site) : Prop where
  applies : (s.withQueue (before ++ rest)).StepApplies c (some .holdTimeout) next
  others : ∀ x ∈ rest, held s x = true
  stays : ((s.withQueue (before ++ rest)).lapsed c next).Idles

/-- What the engine makes of a state in the same event: nothing, where it idles; else the commit that it chooses has left the queue and
begun, or, where its hold timer runs out at that instant, begun or expired. The number of free choices drawn is left open (spec R28, R29,
R30 c; either outcome: log 5). -/
def State.Begins (s t : State) : Prop :=
  (s.Idles → t = s)
  ∧ ∀ (before : List Commit) (c : Commit) (rest : List Commit) (next : Option Site), s.Chooses before c rest next →
      let v := s.withQueue (before ++ rest)
      (c.remaining ≠ 0 → ∃ n : Nat, t = { v.begun c next with freeCount := n })
      ∧ (c.remaining = 0 → s.Lapses before c rest next →
          ∃ n : Nat, t = { v.begun c next with freeCount := n } ∨ t = { v.lapsed c next with freeCount := n })

/-- A command leads from a state to what the engine makes of another; the number of free choices drawn is left open. -/
def State.Leads (s : State) (command : Instr) (w : State) : Prop :=
  ∃ (n : Nat) (t : State), State.Begins { w with freeCount := n } t ∧ exec command s = .next t

/-- The originator of a completed transition that is no step's is told (spec R36, R41 a, R177, R184). -/
def State.told (s : State) (f : Transition) : State :=
  let changed (x : Crosspoints) : Nat := ((List.range 3072).filter fun k => x.getLsbD k).length
  match f.kind with
  | .step _ => s
  | .siteOpen _ => s
  | .host tag =>
    s.answer tag (if f.cut then [0x05, 12] else [0x05, 0] ++ bytes2 (BitVec.ofNat 16 (changed f.opening + changed f.closing)))
  | .opening .safeOpen => { s with protection := { s.protection with openDone := true } }
  | .opening .runOpen =>
    match s.trunk.resetRun with
    | none => s
    | some tag => { s with trunk := { s.trunk with resetRun := none } }.answer tag [0x13, 0]

/-! ### Delivery in statements -/

/-- A RES frame is due for a site (spec R124). -/
def State.Due (s : State) (i : Site) : Prop :=
  1 ≤ s.results[i].credit ∧ 1 ≤ s.results[i].records.length + s.results[i].summary.toList.length
  ∧ (s.results[i].summary ≠ none ∨ (∃ r ∈ s.results[i].records, r.mark = true)
    ∨ s.tables.sites[i].batch ≤ s.results[i].records.length + s.results[i].summary.toList.length)

/-- The length of the candidate run of a site's queue (spec R125 a and b). -/
def State.Candidate (s : State) (i : Site) (n : Nat) : Prop :=
  let q := s.results[i]
  let size := q.records.length + q.summary.toList.length
  if s.tables.sites[i].batch ≤ size ∨ q.summary ≠ none then n = size
  else 1 ≤ n ∧ n ≤ q.records.length ∧ (q.records[n - 1]?.map StepRecord.mark) = some true ∧ ∀ r ∈ q.records.drop n, r.mark = false

/-- The frame in the trunk transmitter (spec R176). -/
def State.sent (s : State) (f : Frame) : State := { s with trunk := { s.trunk with sending := some f } }

/-- A RES frame with the first n records of a site has been taken, and is being sent (spec R126, R128). -/
def State.resSent (s : State) (i : Site) (n : Nat) : State :=
  let q := s.results[i]
  let whole := decide (q.records.length < n)
  State.sent
    { s with
      results := s.results.set i
        { records := q.records.drop n, summary := if whole then none else q.summary, credit := q.credit - n, seq := (q.seq + 1) % 4096 }
      trunk := { s.trunk with lastSite := i } }
    { dest := 250, source := 240, kind := 0x42, flags := 0, tag := BitVec.ofNat 16 (0x8000 + 4096 * i + q.seq)
      payload := BitVec.ofNat 8 n :: (((q.records.take n).map fun r => StepRecord.bytes i r).flatten
        ++ if whole then (q.summary.map (Summary.bytes i)).getD [] else []) }

/-- The site is the first in the rotation for which a RES frame is due, and no store of the trunk before the results holds a frame
(spec R176). -/
structure State.ResNext (s : State) (i : Site) : Prop where
  responses : s.trunk.responses = []
  events : s.trunk.events = []
  bounces : s.trunk.bounces = []
  up : ∀ l : LaneId, s.lanes[l].upBuffer = []
  due : s.Due i
  first : ∀ k : Site, (k.val + 7 - s.trunk.lastSite) % 8 < (i.val + 7 - s.trunk.lastSite) % 8 → ¬s.Due k

/-- A frame forwarded to the host: in the lane's up buffer, or counted where it is full (spec R162). -/
def State.forwarded (s : State) (l : LaneId) (f : Frame) : State :=
  if s.lanes[l].upBuffer.length < 4 then
    { s with lanes := s.lanes.set l { s.lanes[l] with upBuffer := s.lanes[l].upBuffer ++ [f] } }
  else { s with counters := { s.counters with forwardDrops := min (s.counters.forwardDrops + 1) 65535 } }

/-- A lane that goes from UP to a state, before the events: its outputs are UNKNOWN, its transmit queue is empty, and its host frames
have bounced, or are counted where the bounce queue is full (spec R145, R157). -/
def State.upLeft (s : State) (l : LaneId) (x : Lane) : State :=
  s.lanes[l].hostFrames.foldl (fun t f => t.bounced .laneDown f)
    { s with
      tables := { s.tables with
        channels := Vector.ofFn fun c : ChannelId =>
          if laneOfChannel c = l then { s.tables.channels[c] with output := .unknown } else s.tables.channels[c] }
      lanes := s.lanes.set l { x with partFrames := [], hostFrames := [] } }

/-- The trigger tag and the channel of the step that collects on a lane and whose site holds the instrument (spec R86, R160). -/
def State.collecting (s : State) (l : LaneId) : Option (Tag × Fin 8) :=
  s.claims.records[l].holder.bind fun i => s.runs[i].ctx.bind fun c =>
    if s.runs[i].state = .running ∧ c.phase = .collect ∧ c.entry.instrument = some l then
      some (BitVec.ofNat 16 (0x8000 + 4096 * i + s.runs[i].seq), c.entry.channel)
    else none

/-- A frame is a reading that the step would have got whose COLLECT the lane's departure from UP ended (spec R90 b, R160, R163 c). -/
def State.MeetsDeparture (s : State) (l : LaneId) (f : Frame) : Prop :=
  f.kind = 0x20 ∧ f.source = s.tables.instruments[l].node ∧ f.source ≠ 0
  ∧ ∃ (channel : Fin 8) (samples : List Sample), s.lanes[l].leftStep = some (f.tag, channel)
    ∧ readReading f.payload = some (channel, samples)

/-- The step of a site collects on a lane. -/
def State.Collects (s : State) (i : Site) (l : LaneId) : Prop :=
  ∃ c : StepContext, s.runs[i].ctx = some c ∧ c.phase = .collect ∧ c.entry.instrument = some l

/-- A lane is UP, and no step collects on it. -/
structure State.LeavesCleanly (s : State) (l : LaneId) : Prop where
  up : s.lanes[l].state = .up
  steps : ∀ i : Site, ¬s.Collects i l

/-- A bus is live: a channel whose output is not OFF is attached to it (spec R27, R154). -/
def State.IsLive (s : State) (b : Bus) : Prop :=
  ∃ c : ChannelId, s.tables.channels[c].attach = some b ∧ s.tables.channels[c].output ≠ .off

/-- A state follows from another and the events of the flagged buses that became live, in an order that is open (spec R38, R154; log 5).
-/
def State.HotFrom (before t u : State) : Prop :=
  ∃ (hot : List Bus) (n : Nat),
    (hot.Nodup ∧ ∀ b : Bus, b ∈ hot ↔ before.engine.flags.getLsbD b = true ∧ ¬before.IsLive b ∧ t.IsLive b)
    ∧ u = hot.foldl (fun t b => t.eventRaised (.hotBus b)) { t with freeCount := n }

/-- A reading passes the taps: each enabled tap of its source and channel captures its last sample, and those that were not fresh and have
notify send EVT TAP, in an order that is open (spec R165; log 5). -/
def State.TappedBy (s : State) (f : Frame) (who : Option (Site × StepId)) (u : State) : Prop :=
  match readReading f.payload with
  | none => ∃ n : Nat, u = { s with freeCount := n }
  | some (channel, samples) =>
    let watches (k : TapId) : Prop :=
      s.taps[k].enabled = true ∧ f.source ≠ 0 ∧ s.taps[k].node = f.source ∧ s.taps[k].channel = channel
    ∃ (notes : List TapId) (n : Nat),
      (notes.Nodup ∧ ∀ k : TapId, k ∈ notes ↔ watches k ∧ s.taps[k].fresh = false ∧ s.taps[k].notify = true)
      ∧ u = notes.foldl (fun t k => t.eventRaised (.tap k)) { s with
          freeCount := n
          taps := Vector.ofFn fun k : TapId =>
            if s.taps[k].enabled = true ∧ f.source ≠ 0 ∧ s.taps[k].node = f.source ∧ s.taps[k].channel = channel then
              { s.taps[k] with
                last := samples.getLast?, attribution := who, fresh := true
                overrun := if s.taps[k].fresh then min (s.taps[k].overrun + 1) 255 else s.taps[k].overrun }
            else s.taps[k] }

/-- A lane in WAKING, or on in ALIGNING where its card is not quiet (spec R136, R137). -/
def Lane.woken (x : Lane) (attempts : Nat) : Lane :=
  if x.card = .quiet then { x with state := .waking, attempts := attempts, timer := some 20000 }
  else { x with state := .aligning, attempts := attempts, goodRun := 0, timer := some 10000 }

/-- A lane that acts on its standing settings in OFF (spec R135, TABLE 8-3). -/
def Lane.started (x : Lane) : Lane :=
  if x.loopback then { x with state := .loop, goodRun := 0, loopStatus := .testing, timer := some 10000 }
  else if x.demand then x.woken 0
  else x

/-- A lane in OFF, its test if one ran failed (spec R135, R144). -/
def Lane.offed (x : Lane) : Lane :=
  { x with
    state := .off, timer := none, quiet := none, goodRun := 0, badRun := 0, called := false, sending := none
    loopStatus := if x.loopStatus = .testing then .bad else x.loopStatus }

/-- A lane in DRAINING (spec R143). -/
def Lane.draining (x : Lane) : Lane :=
  { x with state := .draining, timer := some 8000, sending := none, quiet := if x.card = .quiet then some 2000 else none }

/-- A lane that SET LANES names with settings, where it does not leave UP, and does not enter OFF (spec R134, TABLE 8-3). -/
def Lane.named (x : Lane) (demand loopback : Bool) : Lane :=
  let y := { x with demand := demand, loopback := loopback }
  match x.state with
  | .off => y.started
  | .draining => y
  | .up => y
  | .loop => y
  | .faulted => y.woken 0
  | _ => if demand then y else y.draining

/-! ### Properties that every step keeps -/

/-- The relay driver chain and the relay drivers hold the image (spec R2). -/
def State.ChainHoldsImage (s : State) : Prop := s.matrix.chain = s.matrix.image ∧ s.matrix.drivers = s.matrix.image

/-- A bus carries a transition flag only while a transition is in flight (spec R36, R37). -/
def State.FlagsInFlight (s : State) : Prop := s.engine.flight = none → s.engine.flags = 0

/-- The crosspoints that the transition in flight may still close. -/
def State.toClose (s : State) : Crosspoints :=
  match s.engine.flight with
  | some t => t.closing
  | none => 0

/-- No pin is connected to both buses of an exclusion pair, nor will be by the transition in flight (spec R15). -/
def State.NoExclusion (s : State) : Prop := hasExclusion s.tables.buses (s.matrix.image ||| s.toClose) = false

/-- A whole-matrix opening closes nothing; and in SAFE every site is IDLE, no commit waits, and a transition caught in its break has no
make phase to come (spec R19, R32, R41, R75, R184). -/
structure State.SafeIsolated (s : State) : Prop where
  openings : ∀ t k, s.engine.flight = some t → t.kind = .opening k → t.closing = 0
  sites : s.protection.safe = true → ∀ i : Site, s.runs[i].state = .idle
  queue : s.protection.safe = true → s.engine.queue = []
  makes : s.protection.safe = true → ∀ t, s.engine.flight = some t → t.phase = .breaking → t.cut = true ∨ t.closing = 0

/-- The stores of the trunk keep within their capacities, and its counters within 16 bits (spec TABLE 0-3, R157, R168, R174, R175). -/
structure State.TrunkWithin (s : State) : Prop where
  input : s.trunk.input.length ≤ 8
  events : s.trunk.events.length ≤ 16
  bounces : s.trunk.bounces.length ≤ 16
  eventSeq : s.trunk.eventSeq < 4096
  badFrames : s.counters.badFrames ≤ 65535
  inputDiscards : s.counters.inputDiscards ≤ 65535
  staleReadings : s.counters.staleReadings ≤ 65535
  forwardDrops : s.counters.forwardDrops ≤ 65535

/-- The stores of the lanes and of the sites keep within their capacities (spec R117, R122, R158, R162). -/
structure State.StoresWithin (s : State) : Prop where
  up : ∀ l : LaneId, s.lanes[l].upBuffer.length ≤ 4
  queued : ∀ l : LaneId, s.lanes[l].queued ≤ 8
  records : ∀ i : Site, s.results[i].records.length ≤ 32
  credit : ∀ i : Site, s.results[i].credit ≤ 255
  seq : ∀ i : Site, s.results[i].seq < 4096

/-- The answers that the management unit owes or holds: those that wait, and those of the outstanding PATCH and RESET RUN requests
(spec R169). -/
def State.answersOwed (s : State) : Nat :=
  s.trunk.responses.length + s.hostTags.length
    + (match s.engine.flight with
      | some { kind := .host _, .. } => 1
      | _ => 0)
    + if s.trunk.resetRun = none then 0 else 1

/-- A site's STEP commit waits or is in flight. -/
def State.Commits (s : State) (i : Site) : Prop :=
  (∃ c ∈ s.engine.queue, c.place = .site i ∧ ∃ p, c.work = .step p) ∨ s.engine.flight.map Transition.kind = some (.step (some i))

/-- The commit queue and the claim records keep their order: every place holds at most one commit, of its kind, and a SITE-OPEN waits
only for an IDLE site; the steps with a commit are in APPLY, and those that wait for an instrument in CLAIM; every site stands at most once
in the claim records, and there on its step's instrument where the step claims; a claim wait timer runs only for a site that waits
(spec R23, R43, R44, R46 to R48, R63 d, R83, R169). -/
structure State.QueuesOrdered (s : State) : Prop where
  places : (s.engine.queue.map Commit.place).Nodup
  kinds : ∀ c ∈ s.engine.queue, (∃ k tag o ops, c.place = .host k ∧ c.work = .host tag o ops)
    ∨ (∃ i p, c.place = .site i ∧ c.work = .step p) ∨ ∃ i, c.place = .site i ∧ c.work = .siteOpen ∧ s.runs[i].state = .idle
  single : ∀ i : Site, s.engine.flight.map Transition.kind = some (.step (some i)) → ∀ c ∈ s.engine.queue, c.place ≠ .site i
  applying : ∀ i : Site, s.Commits i →
    s.runs[i].state = .running ∧ ∃ c, s.runs[i].ctx = some c ∧ c.phase = .apply ∧ c.entry.patch ≠ none
  answers : s.answersOwed ≤ 7
  claims : s.ClaimsOrdered
  waiting : ∀ (l : LaneId) (i : Site), i ∈ s.claims.records[l].waits →
    s.runs[i].state = .running ∧ ∃ c, s.runs[i].ctx = some c ∧ c.phase = .claim ∧ c.entry.instrument = some l
  claiming : ∀ (i : Site) (c : StepContext) (l : LaneId), s.runs[i].ctx = some c → c.phase = .claim →
    i ∈ s.claims.records[l].sites → c.entry.instrument = some l
  timed : ∀ i : Site, s.claims.timers[i] ≠ none → ∃ l : LaneId, i ∈ s.claims.records[l].waits

/-- The numbers that lanes, runs, steps and taps count keep within their widths (spec TABLE 8-1, TABLE 4-2, TABLE 5-2, TABLE 9-6). -/
structure State.CountsWithin (s : State) : Prop where
  attempts : ∀ l : LaneId, s.lanes[l].attempts ≤ 8
    ∧ (s.lanes[l].state = .waking ∨ s.lanes[l].state = .aligning ∨ s.lanes[l].state = .retryWait → s.lanes[l].attempts ≤ 7)
  good : ∀ l : LaneId, s.lanes[l].goodRun ≤ 4
    ∧ (s.lanes[l].state = .aligning ∨ s.lanes[l].state = .lost → s.lanes[l].goodRun ≤ 3)
  bad : ∀ l : LaneId, s.lanes[l].badRun ≤ 3 ∧ (s.lanes[l].state = .up → s.lanes[l].badRun ≤ 2)
  runs : ∀ i : Site, s.runs[i].number ≤ 65535 ∧ s.runs[i].seq ≤ 4095 ∧ s.runs[i].pass ≤ 65535 ∧ s.runs[i].marginal ≤ 65535
    ∧ s.runs[i].fail ≤ 65535 ∧ s.runs[i].stepsRun ≤ 65535
  entries : ∀ k : StepId, s.tables.steps[k].sampleCode ≤ 63
  samples : ∀ (i : Site) (c : StepContext), s.runs[i].ctx = some c →
    c.entry.sampleCode ≤ 63 ∧ c.samples.length ≤ c.entry.sampleCode + 1 ∧ c.placed ≤ 64
  overrun : ∀ t : TapId, s.taps[t].overrun ≤ 255

end Sys2Proof.Machine
end

