-- ==== Sys2Proof/Certificates/Slice0/Obligations.lean ====
section
/-! DEFINITION. The statements for the provers. -/

open Sys2Proof Sys2Proof.Machine

/-! ### The machine -/

/-- A step runs the command at the front of the queue on the state with the queue's rest (log 21). -/
def Obligations.StepRunsFrontCommand : Prop :=
  ∀ (c : Instr) (rest : List Instr) (s : State), step { s with pending := c :: rest } = exec c { s with pending := rest }

/-- The model's choice (log 3): on an empty queue 1 µs passes, by which every running timer comes nearer to its end, and by which no reading
meets an earlier departure of its lane from UP (log 30); nothing else changes. -/
def Obligations.EmptyQueueLetsTimePass : Prop :=
  ∀ s : State, s.pending = [] →
    step s = .next { s with
      engine := { s.engine with
        queue := s.engine.queue.map fun c => { c with remaining := c.remaining - 1 }
        flight := s.engine.flight.map fun t => { t with remaining := t.remaining - 1 } }
      claims := { s.claims with timers := Vector.ofFn fun i : Site => s.claims.timers[i].map fun n => n - 1 }
      runs := Vector.ofFn fun i : Site =>
        { s.runs[i] with
          ctx := s.runs[i].ctx.map fun c =>
            { c with settleTimer := c.settleTimer.map fun n => n - 1, collectTimer := c.collectTimer.map fun n => n - 1 } }
      lanes := Vector.ofFn fun l : LaneId =>
        { s.lanes[l] with
          timer := s.lanes[l].timer.map fun n => n - 1, quiet := s.lanes[l].quiet.map fun n => n - 1, leftStep := none }
      protection := { s.protection with timer := s.protection.timer.map fun n => n - 1 } }

/-- What a full reset leaves, with every input inactive and every card quiet (the levels are the model's choice, log
1; leftStep is the model's own field, log 30). -/
def Obligations.ResetValues : Prop :=
  State.reset.matrix = { image := 0, chain := 0, drivers := 0 }
  ∧ State.reset.engine = { queue := [], flight := none, openings := [], flags := 0 }
  ∧ (∀ k : Fin 4, State.reset.tables.relays[k] = { operate := 2000, release := 2000 })
  ∧ (∀ b : Bus, State.reset.tables.buses[b] = { owner := none, relayType := 0, exclusion := 0 })
  ∧ (∀ i : Site, State.reset.tables.sites[i] =
      { firstGroup := i, groupCount := 1, skew := 0, panel := i, startStep := 0, claimWait := 1000, holdLimit := 1000, batch := 8,
        markAll := true, openOnAbort := true })
  ∧ (∀ l : LaneId, State.reset.tables.instruments[l] = { node := 0, policy := none, channels := 1 })
  ∧ (∀ c : ChannelId, State.reset.tables.channels[c] =
      { attach := none, cal := { offset := 0, gain := 16384, exponent := 0 }, output := .unknown })
  ∧ (∀ l : LimitId, State.reset.tables.limits[l] = { low := -8388608, high := 8388607, guard := 0, mode := .record })
  ∧ (∀ p : PatchId, State.reset.tables.patches[p] = [])
  ∧ (∀ k : StepId, State.reset.tables.steps[k] =
      { patch := none, instrument := none, channel := 0, mode := .average, sampleCode := 0, setup := 0, limit := none, settle := 0,
        collect := 100, keep := false, stopOnFail := false, mark := false, raw := false, next := none })
  ∧ (∀ l : LaneId, State.reset.claims.records[l] = { holder := none, waits := [] })
  ∧ (∀ i : Site, State.reset.claims.timers[i] = none)
  ∧ (∀ i : Site, State.reset.runs[i] =
      { state := .idle, step := 0, number := 0, seq := 0, pause := false, pass := 0, marginal := 0, fail := 0, worst := .none,
        firstFail := none, stepsRun := 0, ctx := none })
  ∧ (∀ i : Site, State.reset.results[i] = { records := [], summary := none, credit := 0, seq := 0 })
  ∧ (∀ l : LaneId, State.reset.lanes[l] =
      { state := .off, demand := false, loopback := false, attempts := 0, timer := none, quiet := none, goodRun := 0, badRun := 0,
        called := false, loopStatus := .untested, card := .quiet, partFrames := [], hostFrames := [], upBuffer := [],
        sending := none, leftStep := none })
  ∧ (∀ t : TapId, State.reset.taps[t] =
      { enabled := false, node := 0, channel := 0, notify := false, fresh := false, last := none, attribution := none, overrun := 0 })
  ∧ State.reset.counters = { badFrames := 0, inputDiscards := 0, staleReadings := 0, forwardDrops := 0 }
  ∧ State.reset.protection = { safe := true, causes := 0b0001, openDone := true, setting := 0, timer := none }
  ∧ State.reset.trunk =
      { input := [], responses := [], events := [(0, .safeEnter 0b0001)], eventSeq := 1, eventsLost := false, bounces := [],
        sending := none, lastLane := 11, lastSite := 7, closed := false, resetRun := none }

/-- The state after reset has every invariant, and nothing is left to do in it (the levels of its inputs are the model's choice, log 1). -/
def Obligations.ResetMeetsInvariants : Prop :=
  State.reset.ChainHoldsImage ∧ State.reset.FlagsInFlight ∧ State.reset.NoExclusion ∧ State.reset.TrunkWithin
  ∧ State.reset.StoresWithin ∧ State.reset.QueuesOrdered ∧ State.reset.CountsWithin ∧ State.reset.SafeIsolated ∧ State.reset.AtRest
  ∧ State.reset.Listening

/-- Every request that can be laid out is read back from its payload, with every field at every value. -/
def Obligations.RequestLayoutsReadBack : Prop := ∀ r : Request, r.wf = true → readRequest r.payload = some r

/-- A byte sequence is accepted as a frame exactly when it is that frame as sent, with a payload of at most 1024 bytes and no flag but
FORCE. -/
def Obligations.FramesReadBack : Prop :=
  ∀ (bytes : List Byte) (f : Frame),
    readFrame bytes = some f ↔ bytes = f.bytes ∧ f.payload.length ≤ 1024 ∧ f.flags &&& 0xFE = 0

/-- A request's command, and BAD_REQUEST, do what the arrival on the trunk of the host's frame with that payload does (log 2). -/
def Obligations.RequestIsItsFrame : Prop :=
  (∀ (c : Instr) (tag : Tag) (r : Request) (s : State), c.request = some (tag, r) → r.payload.length ≤ 1024 →
    exec c s = exec (.trunkFrameReceive (hostFrame tag r.payload).bytes) s)
  ∧ ∀ (tag : Tag) (payload : List Byte) (s : State), payload.length ≤ 1024 →
    exec (.badRequest tag payload) s = exec (.trunkFrameReceive (hostFrame tag payload).bytes) s

/-- While RST-N is held low nothing acts but the resets and the levels of the inputs; the levels and line conditions follow the pins
(the latter is the model's reading, log 18). -/
def Obligations.RstLowHoldsThePart : Prop :=
  ∀ s : State, s.inputs.rstLow = true →
    (∀ c : Instr, actsInReset c = false → exec c s = .next s)
    ∧ exec .safeReqAssert s = .next { s with inputs := { s.inputs with safeReq := true } }
    ∧ exec .safeReqRelease s = .next { s with inputs := { s.inputs with safeReq := false } }
    ∧ (∀ (i : Site) (level : Bool),
        exec (.presentChange i level) s = .next { s with inputs := { s.inputs with present := s.inputs.present.set i level } })
    ∧ ∀ (l : LaneId) (c : CardCondition),
        exec (.cardConditionChange l c) s = .next { s with lanes := s.lanes.set l { s.lanes[l] with card := c } }

/-! ### What every step keeps -/

/-- After every step the relay driver chain and the relay drivers hold the image, and no transition flag stands without a transition in
flight. -/
def Obligations.EngineStaysConsistent : Prop :=
  (∀ s t : State, s.ChainHoldsImage → step s = .next t → t.ChainHoldsImage)
  ∧ (∀ s t : State, s.FlagsInFlight → step s = .next t → t.FlagsInFlight)

/-- After every step, no pin is connected to both buses of an exclusion pair, nor will be by the transition in flight. -/
def Obligations.NoExclusionKept : Prop := ∀ s t : State, s.NoExclusion → step s = .next t → t.NoExclusion

/-- The trunk's input, event and bounce stores and its counters, the lanes' transmit queues and up buffers, and the sites' record queues,
credit and sequences keep within their bounds. -/
def Obligations.StoresKeepWithin : Prop :=
  (∀ s t : State, s.TrunkWithin → step s = .next t → t.TrunkWithin)
  ∧ (∀ s t : State, s.StoresWithin → step s = .next t → t.StoresWithin)

/-- After every step each place of the commit queue holds at most one commit, of its kind; steps with a commit are in APPLY, waiting steps
in CLAIM; a site stands at most once in the claim records, and its claim wait timer runs only while it waits; at most seven answers are owed
or held; and the numbers that lanes, runs, steps and taps count keep within their widths. -/
def Obligations.QueuesKeepOrder : Prop :=
  (∀ s t : State, s.QueuesOrdered → step s = .next t → t.QueuesOrdered)
  ∧ (∀ s t : State, s.CountsWithin → step s = .next t → t.CountsWithin)

/-- After every step, in SAFE every site is idle, no commit waits, and no make phase is to come; and while the part is in SAFE, no
crosspoint joins the image. -/
def Obligations.SafeIsolatedKept : Prop :=
  (∀ s t : State, s.SafeIsolated → step s = .next t → t.SafeIsolated)
  ∧ ∀ s t : State, s.SafeIsolated → s.protection.safe = true → step s = .next t → t.matrix.image &&& ~~~s.matrix.image = 0

/-! ### Requests that answer and change nothing else -/

/-- NOP is answered OK; a payload that no layout admits is answered BAD_REQUEST with its first byte for the code, 0xFF for an empty one,
and nothing changes. A payload is unread when its code is past those of TABLE 10-2, and when a code of fixed length has another length. -/
def Obligations.BadRequestsAnswered : Prop :=
  (∀ (tag : Tag) (s : State), s.Quiet → s.Listening →
      exec (.nop tag) s = .next (s.heard.answer tag [0x00, 0])
      ∧ exec (.badRequest tag []) s = .next (s.heard.answer tag [0xFF, 1])
      ∧ ∀ (code : Byte) (rest : List Byte), rest.length ≤ 1023 → readRequest (code :: rest) = none →
          exec (.badRequest tag (code :: rest)) s = .next (s.heard.answer tag [code, 1]))
  ∧ (readRequest [] = none
    ∧ (∀ (code : Byte) (rest : List Byte), 0x14 < code.toNat → readRequest (code :: rest) = none)
    ∧ (∀ (code : Byte) (rest : List Byte), code.toNat ∈ [0x00, 0x0F, 0x11, 0x12, 0x13, 0x14] → rest.length ≠ 0 →
        readRequest (code :: rest) = none)
    ∧ (∀ (code : Byte) (rest : List Byte), code.toNat ∈ [0x01, 0x06, 0x08, 0x09, 0x0A, 0x0D, 0x10] → rest.length ≠ 1 →
        readRequest (code :: rest) = none)
    ∧ (∀ (code : Byte) (rest : List Byte), code.toNat ∈ [0x0B, 0x0C] → rest.length ≠ 2 → readRequest (code :: rest) = none)
    ∧ (∀ rest : List Byte, rest.length ≠ 4 → readRequest (0x03 :: rest) = none)
    ∧ (∀ rest : List Byte, rest.length ≠ 3 → readRequest (0x07 :: rest) = none)
    ∧ (∀ (n : Byte) (rest : List Byte), rest.length ≠ 3 * n.toNat → readRequest (0x04 :: n :: rest) = none)
    ∧ (∀ (n : Byte) (rest : List Byte), rest.length ≠ 5 * n.toNat → readRequest (0x0E :: n :: rest) = none)
    ∧ ∀ (o h1 h0 n : Byte) (rest : List Byte), rest.length ≠ 14 * n.toNat → readRequest (0x05 :: o :: h1 :: h0 :: n :: rest) = none)

/-- READ STATUS answers its 53 bytes; with the clear flag the four counters and the events-lost flag are cleared after the data is
taken; another flag is BAD_VALUE. -/
def Obligations.ReadStatusAnswers : Prop :=
  ∀ (tag : Tag) (clear : Byte) (s : State), s.Quiet → s.Listening →
    (1 < clear.toNat → exec (.readStatus tag clear) s = .next (s.heard.answer tag [0x01, 2]))
    ∧ (clear.toNat ≤ 1 → ∃ d : List Byte,
        exec (.readStatus tag clear) s = .next
          ((if clear = 1 then
              { s.heard with
                counters := { badFrames := 0, inputDiscards := 0, staleReadings := 0, forwardDrops := 0 }
                trunk := { s.trunk with eventsLost := false } }
            else s.heard).answer tag (0x01 :: 0 :: d))
        ∧ d.length = 53 ∧ d.take 3 = [0x08, 0x24, 1]
        ∧ (d.getD 3 0).toNat = s.protection.safe.toNat + 2 * s.protection.openDone.toNat + 4 * s.trunk.eventsLost.toNat
        ∧ (d.getD 4 0).toNat = s.protection.causes.toNat
        ∧ d.getD 5 0 = BitVec.ofNat 8 s.protection.setting
        ∧ (d.drop 6).take 8 = bytes2 (BitVec.ofNat 16 s.counters.badFrames) ++ bytes2 (BitVec.ofNat 16 s.counters.inputDiscards)
            ++ bytes2 (BitVec.ofNat 16 s.counters.staleReadings) ++ bytes2 (BitVec.ofNat 16 s.counters.forwardDrops)
        ∧ (∀ l : LaneId, d.getD (14 + l) 0 = s.lanes[l].state.code ∧ d.getD (26 + l) 0 = s.lanes[l].loopStatus.code)
        ∧ (∀ i : Site, d.getD (38 + i) 0 = s.runs[i].state.code)
        ∧ d.getD 46 0 = BitVec.ofNat 8 s.engine.queue.length
        ∧ (d.getD 47 0).toNat = s.engine.flight.isSome.toNat
            + 2 * (decide (s.matrix.image = 0 ∧ s.engine.flight = none)).toNat
        ∧ (d.drop 48).take 2 = bytes2 (BitVec.ofNat 16 ((List.range 3072).filter fun k => s.matrix.image.getLsbD k).length)
        ∧ (∀ b : Bus, (d.getD 50 0).getLsbD b =
            decide (∃ c : ChannelId, s.tables.channels[c].attach = some b ∧ s.tables.channels[c].output ≠ .off))
        ∧ d.getD 51 0 = 0 ∧ d.getD 52 0 = BitVec.ofNat 8 s.trunk.events.length)

/-- READ TABLE answers the entries of its range in order; an unknown table, a count of 0 (log 16), a range past the table's end and an
answer too long for a payload are BAD_VALUE. -/
def Obligations.ReadTableAnswers : Prop :=
  ∀ (tag : Tag) (table : Byte) (first : Half) (n : Byte) (s : State), s.Quiet → s.Listening →
    let data := ((List.range n.toNat).map fun j => entryBytes s table (first.toNat + j)).flatten
    exec (.readTable tag table first n) s = .next (s.heard.answer tag
      (if n ≠ 0 ∧ first.toNat + n.toNat ≤ tableSize table ∧ data.length ≤ 1022 then 0x03 :: 0 :: data else [0x03, 2]))

/-- READ MATRIX answers the connection flags of a group on every bus, as the image stands; VERIFY MATRIX answers for each pin of a group
whether it is connected on the care buses as expected. -/
def Obligations.MatrixAnswers : Prop :=
  (∀ (tag : Tag) (group : Byte) (s : State), s.Quiet → s.Listening →
    (11 < group.toNat → exec (.readMatrix tag group) s = .next (s.heard.answer tag [0x06, 2]))
    ∧ (group.toNat ≤ 11 → ∃ flags : Bus → PinFlags,
        exec (.readMatrix tag group) s = .next (s.heard.answer tag
          (0x06 :: 0 :: ((List.finRange 8).map fun b => bytes4 (flags b)).flatten))
        ∧ ∀ (b : Bus) (k : Nat), k < 32 → (flags b).getLsbD k = s.matrix.image.getLsbD (384 * b + (32 * group.toNat + k))))
  ∧ ∀ (tag : Tag) (group : Byte) (expected care : BusSet) (s : State), s.Quiet → s.Listening →
    (11 < group.toNat → exec (.verifyMatrix tag group expected care) s = .next (s.heard.answer tag [0x07, 2]))
    ∧ (group.toNat ≤ 11 → ∃ flags : PinFlags,
        exec (.verifyMatrix tag group expected care) s = .next (s.heard.answer tag ([0x07, 0] ++ bytes4 flags))
        ∧ ∀ k : Nat, k < 32 → (flags.getLsbD k = true ↔ ∀ b : Bus, care.getLsbD b = true →
            s.matrix.image.getLsbD (384 * b + (32 * group.toNat + k)) = expected.getLsbD b))

/-- READ SITE answers the 28-byte reports of the named sites in ascending order. The milliseconds left on a claim wait timer that is
not at a whole millisecond are rounded in a direction the spec leaves open (log 11). -/
def Obligations.ReadSiteAnswers : Prop :=
  ∀ (tag : Tag) (sites : SiteMask) (s : State), s.Quiet → s.Listening →
    ∃ report : Site → List Byte,
      exec (.readSite tag sites) s = .next (s.heard.answer tag
        (0x0D :: 0 :: (((List.finRange 8).filter fun i : Site => sites.getLsbD i).map report).flatten))
      ∧ ∀ i : Site, (report i).length = 28
        ∧ (report i).take 9 = [BitVec.ofNat 8 i, s.runs[i].state.code,
            (if s.runs[i].state = .running then (s.runs[i].ctx.map fun c => c.phase.code).getD 0xFF else 0xFF)]
            ++ bytes2 (BitVec.ofNat 16 s.runs[i].step) ++ bytes2 (BitVec.ofNat 16 s.runs[i].number)
            ++ bytes2 (BitVec.ofNat 16 s.runs[i].seq)
        ∧ ((report i).getD 9 0).toNat = s.runs[i].pause.toNat + 2 * s.inputs.present[i].toNat
            + 4 * s.results[i].summary.isSome.toNat
            + 8 * (decide ((∃ c ∈ s.engine.queue, c.place = .site i ∧ c.work = .siteOpen)
                ∨ s.engine.flight.map Transition.kind = some (.siteOpen i))).toNat
        ∧ ((report i).drop 10).take 6 = bytes2 (BitVec.ofNat 16 s.runs[i].pass) ++ bytes2 (BitVec.ofNat 16 s.runs[i].marginal)
            ++ bytes2 (BitVec.ofNat 16 s.runs[i].fail)
        ∧ (report i).getD 16 0 = s.runs[i].worst.code
        ∧ ((report i).drop 17).take 2 = bytes2 ((s.runs[i].firstFail.map fun k : StepId => BitVec.ofNat 16 k.val).getD 0xFFFF)
        ∧ ((report i).drop 19).take 4 = bytes2 (BitVec.ofNat 16 s.runs[i].stepsRun)
            ++ [BitVec.ofNat 8 s.results[i].records.length, BitVec.ofNat 8 s.results[i].credit]
        ∧ (∀ l : LaneId, (∀ k : LaneId, s.claims.records[k].holder = some i ↔ k = l) → (report i).getD 23 0 = BitVec.ofNat 8 l)
        ∧ ((∀ k : LaneId, s.claims.records[k].holder ≠ some i) → (report i).getD 23 0 = 0xFF)
        ∧ ((∀ k : LaneId, i ∉ s.claims.records[k].waits) → (report i).drop 24 = [0xFF, 0xFF, 0, 0])
        ∧ ∀ (l : LaneId) (us : Nat), (∀ k : LaneId, i ∈ s.claims.records[k].waits ↔ k = l) → s.claims.timers[i] = some us →
            ∃ ms : Nat, (ms = us / 1000 ∨ (us % 1000 ≠ 0 ∧ ms = us / 1000 + 1))
              ∧ (report i).drop 24 = [BitVec.ofNat 8 l, BitVec.ofNat 8 (s.claims.records[l].waits.idxOf i)]
                  ++ bytes2 (BitVec.ofNat 16 ms)

/-! ### The host-loaded tables

Each statement gives the status of every entry, and so of the request: the first entry that fails gives it, and the table changes only
with OK. An empty list of entries is BAD_VALUE (log 16), and the gates look at the table as it would stand (log 15). Where a write can
end a hold, `State.Begins` says what the engine makes of it. -/

/-- The relay-type table, refused IN_USE while a site runs or the engine works. The bus table, refused so too or when the owner of a
connected bus would change, and EXCLUSION when the image connects a pin to a pair of the table as it would stand (log 15). An empty list is
BAD_VALUE (log 16); an earlier entry's gate is answered before a later entry's range (log 27). -/
def Obligations.MatrixTablesWritten : Prop :=
  (∀ (tag : Tag) (es : List RelayTypeRaw) (s : State), s.Quiet → s.Listening → (Request.writeRelayTypes es).wf = true →
      ∀ idle : Bool, (idle = true ↔ s.MatrixIdle) →
      exec (.writeRelayTypeTable tag es) s = .next (s.tablesWritten tag
        (writeStatus (fun e => if 4 ≤ e.index.toNat ∨ e.operate = 0 ∨ e.release = 0 then 2 else if idle then 0 else 3) es)
        { s.tables with relays := Vector.ofFn fun i => lastEntry RelayTypeRaw.read es i s.tables.relays[i] }))
  ∧ (∀ (tag : Tag) (es : List BusRaw) (s : State), s.Quiet → s.Listening → (Request.writeBuses es).wf = true →
      ∀ idle : Bool, (idle = true ↔ s.MatrixIdle) →
      let after := Vector.ofFn fun b => lastEntry BusRaw.read es b s.tables.buses[b]
      exec (.writeBusTable tag es) s = .next (s.tablesWritten tag
        (writeStatus (fun e =>
          match BusRaw.read e with
          | none => 2
          | some (b, x) =>
            if idle = false then 3
            else if x.owner ≠ s.tables.buses[b].owner ∧ row s.matrix.image b ≠ 0 then 3
            else if hasExclusion after s.matrix.image then 8
            else 0) es)
        { s.tables with buses := after }))

/-- The site table, refused IN_USE while the entry's site runs or when a changed extent is connected, and OVERLAP when the extent would
meet another site's in the table as it would stand (log 15). The gate on extents looks at the image alone, also while a transition has
crosspoints still to close (log 29). An empty list is BAD_VALUE (log 16); an earlier entry's gate is answered before a later entry's range
(log 27). -/
def Obligations.SiteTableWritten : Prop :=
  ∀ (tag : Tag) (es : List SiteRaw) (s : State), s.Quiet → s.Listening → (s.engine.queue = [] ∨ s.engine.flight ≠ none) →
      (Request.writeSites es).wf = true →
    let after := Vector.ofFn fun i => lastEntry SiteRaw.read es i s.tables.sites[i]
    exec (.writeSiteTable tag es) s = .next (s.tablesWritten tag
      (writeStatus (fun e =>
        match SiteRaw.read e with
        | none => 2
        | some (i, x) =>
          if s.runs[i].state ≠ .idle then 3
          else if ∃ j : Site, j ≠ i ∧ ∃ g : Fin 12, (x.firstGroup ≤ g ∧ g < x.firstGroup + x.groupCount)
              ∧ after[j].firstGroup ≤ g ∧ g < after[j].firstGroup + after[j].groupCount then 7
          else if (x.firstGroup ≠ s.tables.sites[i].firstGroup ∨ x.groupCount ≠ s.tables.sites[i].groupCount)
              ∧ (s.matrix.image &&& onAnyBus (extent s.tables.sites[i]) ≠ 0 ∨ s.matrix.image &&& onAnyBus (extent x) ≠ 0) then 3
          else 0) es)
      { s.tables with sites := after })

/-- The instrument table: a node that another lane has in the table as it would stand (log 15), or that two entries of the request give, be
it to one lane, is DUPLICATE_NODE; a changed entry needs its lane in OFF or FAULTED, without holder or waiting site. The channel table:
attach bus and calibration are written and the output state stays; a changed attach bus needs its lane so too; a flagged bus that becomes
live sends EVT HOT_BUS, and a commit that the write frees begins, behind the answer (log 8; log 5 where its hold timer is due). An empty
list is BAD_VALUE (log 16); an earlier entry's gate is answered before a later entry's range (log 27). -/
def Obligations.LaneTablesWritten : Prop :=
  (∀ (tag : Tag) (es : List InstrumentRaw) (s : State), s.Quiet → s.Listening → (Request.writeInstruments es).wf = true →
      let after := Vector.ofFn fun l => lastEntry InstrumentRaw.read es l s.tables.instruments[l]
      exec (.writeInstrumentTable tag es) s = .next (s.tablesWritten tag
        (writeStatus (fun e =>
          match InstrumentRaw.read e with
          | none => 2
          | some (l, x) =>
            if x.node ≠ 0 ∧ ((∃ k : LaneId, k ≠ l ∧ after[k].node = x.node)
                ∨ 2 ≤ ((es.filterMap InstrumentRaw.read).filter fun f => decide (f.2.node = x.node)).length) then 14
            else if x ≠ s.tables.instruments[l] ∧ ¬((s.lanes[l].state = .off ∨ s.lanes[l].state = .faulted)
                ∧ s.claims.records[l].holder = none ∧ s.claims.records[l].waits = []) then 3
            else 0) es)
        { s.tables with instruments := after }))
  ∧ (∀ (tag : Tag) (es : List ChannelRaw) (s : State), s.Quiet → s.Listening →
      (Request.writeChannels es).wf = true →
      ∃ t u : State, exec (.writeChannelTable tag es) s = .next t ∧ u.Begins t ∧ s.HotFrom (s.tablesWritten tag
        (writeStatus (fun e =>
          match ChannelRaw.read e with
          | none => 2
          | some (c, attach, _) =>
            if attach ≠ s.tables.channels[c].attach
                ∧ ¬((s.lanes[laneOfChannel c].state = .off ∨ s.lanes[laneOfChannel c].state = .faulted)
                  ∧ s.claims.records[laneOfChannel c].holder = none ∧ s.claims.records[laneOfChannel c].waits = []) then 3
            else 0) es)
        { s.tables with
          channels := Vector.ofFn fun c =>
            let x := lastEntry ChannelRaw.read es c (s.tables.channels[c].attach, s.tables.channels[c].cal)
            { attach := x.1, cal := x.2, output := s.tables.channels[c].output } }) u)

/-- The limit table, which is refused LIMIT_ORDER only for a BOTH entry with low above high; and the patch table and the step table,
which are refused only for entries out of range; a commit that a patch write frees begins, behind the answer (log 8; log 5 where its hold
timer is due). An empty list is BAD_VALUE in each (log 16); an earlier limit entry's order is answered before a later entry's range (log
27). -/
def Obligations.UngatedTablesWritten : Prop :=
  (∀ (tag : Tag) (es : List LimitRaw) (s : State), s.Quiet → s.Listening → (Request.writeLimits es).wf = true →
      exec (.writeLimitTable tag es) s = .next (s.tablesWritten tag
        (writeStatus (fun e =>
          if 512 ≤ e.index.toNat ∨ 3 < e.mode.toNat then 2 else if e.mode = 0 ∧ e.low.toInt > e.high.toInt then 10 else 0) es)
        { s.tables with limits := Vector.ofFn fun i => lastEntry LimitRaw.read es i s.tables.limits[i] }))
  ∧ ((∀ (tag : Tag) (es : List PatchRaw) (s : State), s.Quiet → s.Listening → (Request.writePatches es).wf = true →
      ∃ t : State, exec (.writePatchTable tag es) s = .next t ∧ (s.tablesWritten tag
        (writeStatus (fun e => if (PatchRaw.read e).isSome then 0 else 2) es)
        { s.tables with patches := Vector.ofFn fun i => lastEntry PatchRaw.read es i s.tables.patches[i] }).Begins t)
    ∧ ∀ (tag : Tag) (es : List StepRaw) (s : State), s.Quiet → s.Listening → (Request.writeSteps es).wf = true →
      exec (.writeStepTable tag es) s = .next (s.tablesWritten tag
        (writeStatus (fun e => if (StepRaw.read e).isSome then 0 else 2) es)
        { s.tables with steps := Vector.ofFn fun i => lastEntry StepRaw.read es i s.tables.steps[i] }))

/-- The ranges of the fields of every table entry: an entry outside them is not read, and is answered BAD_VALUE. -/
def Obligations.EntryRanges : Prop :=
  (∀ e : RelayTypeRaw, (RelayTypeRaw.read e).isSome ↔ e.index.toNat ≤ 3 ∧ e.operate ≠ 0 ∧ e.release ≠ 0)
  ∧ (∀ e : BusRaw, (BusRaw.read e).isSome ↔ e.index.toNat ≤ 7 ∧ (e.owner.toNat ≤ 7 ∨ e.owner = 0xFF) ∧ e.relayType.toNat ≤ 3
      ∧ e.exclusion.getLsbD e.index.toNat = false)
  ∧ (∀ e : SiteRaw, (SiteRaw.read e).isSome ↔ e.index.toNat ≤ 7 ∧ e.firstGroup.toNat ≤ 11 ∧ 1 ≤ e.groupCount.toNat
      ∧ e.firstGroup.toNat + e.groupCount.toNat ≤ 12 ∧ e.skew.toNat ≤ 31 ∧ e.panel.toNat ≤ 7 ∧ e.startStep.toNat ≤ 1023
      ∧ e.claimWait ≠ 0 ∧ e.holdLimit ≠ 0 ∧ 1 ≤ e.batch.toNat ∧ e.batch.toNat ≤ 32 ∧ e.options.toNat ≤ 3)
  ∧ (∀ e : InstrumentRaw, (InstrumentRaw.read e).isSome ↔ e.lane.toNat ≤ 11 ∧ e.node.toNat ≤ 239
      ∧ (e.policy.toNat ≤ 7 ∨ e.policy = 0xFF) ∧ 1 ≤ e.channels.toNat ∧ e.channels.toNat ≤ 8)
  ∧ (∀ e : ChannelRaw, (ChannelRaw.read e).isSome ↔ e.index.toNat ≤ 95 ∧ (e.attach.toNat ≤ 7 ∨ e.attach = 0xFF)
      ∧ -15 ≤ e.exponent.toInt ∧ e.exponent.toInt ≤ 15)
  ∧ (∀ e : LimitRaw, (LimitRaw.read e).isSome ↔ e.index.toNat ≤ 511 ∧ e.mode.toNat ≤ 3)
  ∧ (∀ e : OpRaw, (OpRaw.read e).isSome ↔ e.group.toNat ≤ 11 ∧ e.rep.toNat ≤ 11 ∧ e.kind.toNat ≤ 3
      ∧ ∀ b : Bus, e.forceClose.getLsbD b = true → e.force.getLsbD b = true)
  ∧ (∀ e : PatchRaw, (PatchRaw.read e).isSome ↔ e.ops.length ≤ 8 ∧ ∀ op ∈ e.ops, (OpRaw.read op).isSome)
  ∧ (∀ e : StepRaw, (StepRaw.read e).isSome ↔ e.index.toNat ≤ 1023 ∧ (e.patch.toNat ≤ 255 ∨ e.patch = 0xFFFF)
      ∧ (e.instrument.toNat ≤ 11 ∨ e.instrument = 0xFF) ∧ e.channel.toNat ≤ 7 ∧ e.mode.toNat ≤ 1 ∧ e.sampleCode.toNat ≤ 63
      ∧ (e.limit.toNat ≤ 511 ∨ e.limit = 0xFFFF) ∧ e.collect ≠ 0 ∧ e.flags.toNat ≤ 15
      ∧ (e.next.toNat ≤ 1023 ∨ e.next = 0xFFFF))
  ∧ ∀ e : TapRaw, (TapRaw.read e).isSome ↔ e.index.toNat ≤ 3 ∧ e.enabled.toNat ≤ 1 ∧ e.node.toNat ≤ 239 ∧ e.channel.toNat ≤ 7
      ∧ e.notify.toNat ≤ 1

/-- An entry that is read is laid out again as it was given; a channel entry has its output state behind it. What the part lays out of its
own, byte by byte: the payloads of events and bounces, step records with their flags, value and raw mean, and summaries, with the codes of
their fields; numbers stand with the most significant byte first. -/
def Obligations.EntriesReadBack : Prop :=
  ((∀ (e : RelayTypeRaw) i v, RelayTypeRaw.read e = some (i, v) → relayBytes i v = RelayTypeRaw.bytes e)
  ∧ (∀ (e : BusRaw) i v, BusRaw.read e = some (i, v) → busBytes i v = BusRaw.bytes e)
  ∧ (∀ (e : SiteRaw) i v, SiteRaw.read e = some (i, v) → siteBytes i v = SiteRaw.bytes e)
  ∧ (∀ (e : InstrumentRaw) i v, InstrumentRaw.read e = some (i, v) → instrumentBytes i v = InstrumentRaw.bytes e)
  ∧ (∀ (e : ChannelRaw) i a c, ChannelRaw.read e = some (i, a, c) → ∀ o : Output,
      channelBytes i { attach := a, cal := c, output := o } = ChannelRaw.bytes e
        ++ [match o with | .off => 0 | .on => 1 | .unknown => 2])
  ∧ (∀ (e : LimitRaw) i v, LimitRaw.read e = some (i, v) → limitBytes i v = LimitRaw.bytes e)
  ∧ (∀ (e : PatchRaw) i v, PatchRaw.read e = some (i, v) → patchBytes i v = PatchRaw.bytes e)
  ∧ (∀ (e : StepRaw) i v, StepRaw.read e = some (i, v) → stepBytes i v = StepRaw.bytes e)
  ∧ ∀ (e : TapRaw) i v, TapRaw.read e = some (i, v) → tapSettingBytes i v = TapRaw.bytes e)
  ∧ let number (n : Nat) : List Byte := [BitVec.ofNat 8 (n / 256), BitVec.ofNat 8 n]
    let flags (bs : List Bool) : Byte := BitVec.ofNat 8 ((bs.zipIdx.map fun b => if b.1 then 2 ^ b.2 else 0).sum)
    let verdict (v : Verdict) : Byte := match v with
      | .none => 0 | .pass => 1 | .marginal => 2 | .failLow => 3 | .failHigh => 4 | .failRange => 5 | .noData => 6
    (∀ e : Event, e.payload = match e with
      | .lane l state attempts => [1, BitVec.ofNat 8 l,
          match state with
          | .off => 0 | .waking => 1 | .aligning => 2 | .up => 3 | .lost => 4 | .retryWait => 5 | .faulted => 6 | .draining => 7 | .loop => 8,
          BitVec.ofNat 8 attempts]
      | .laneCall l => [2, BitVec.ofNat 8 l]
      | .safeEnter causes => [3, BitVec.ofNat 8 causes.toNat]
      | .safeClear => [4]
      | .hotBus b => [5, BitVec.ofNat 8 b]
      | .openExpired i => [6, BitVec.ofNat 8 i]
      | .tap k => [7, BitVec.ofNat 8 k]
      | .sitePaused i n reason => [8, BitVec.ofNat 8 i] ++ number n ++ [match reason with | .halt => 0 | .stopOnFail => 1]
      | .board i present => [9, BitVec.ofNat 8 i, if present then 1 else 0])
    ∧ (∀ b : Bounce, (bounceFrame b).payload = [match b.reason with
        | .noRoute => 1 | .badTag => 2 | .laneDown => 3 | .held => 4 | .laneFull => 5, b.node])
    ∧ (∀ (i : Site) (r : StepRecord), r.bytes i =
        [1, BitVec.ofNat 8 i] ++ number r.run ++ number r.step ++ [BitVec.ofNat 8 r.series, verdict r.verdict,
          match r.cause with
          | .ok => 0 | .claimTimeout => 1 | .foreign => 2 | .noInstrument => 3 | .patchRange => 4 | .exclusion => 5 | .busForeign => 6
          | .holdTimeout => 7 | .lane => 8 | .collectTimeout => 9,
          BitVec.ofNat 8 r.samplesUsed,
          flags [r.overrange, r.sat, r.short, r.disturbed, r.extra, r.mark, r.value.isSome, r.rawMean.isSome],
          BitVec.ofInt 8 r.exponent]
        ++ number (match r.limit with | some k => k.val | none => 0xFFFF)
        ++ (match r.value with
          | some v => [BitVec.ofInt 8 (v / 65536), BitVec.ofInt 8 (v / 256), BitVec.ofInt 8 v]
          | none => [])
        ++ match r.rawMean with
          | some v => [BitVec.ofInt 8 (v / 16777216), BitVec.ofInt 8 (v / 65536), BitVec.ofInt 8 (v / 256), BitVec.ofInt 8 v]
          | none => [])
    ∧ ∀ (i : Site) (x : Summary), x.bytes i =
        [2, BitVec.ofNat 8 i] ++ number x.run
        ++ [match x.cause with | .ended => 0 | .abortHost => 1 | .abortPanel => 2 | .absent => 3 | .safe => 4, verdict x.worst]
        ++ number x.pass ++ number x.marginal ++ number x.fail
        ++ number (match x.firstFail with | some n => n.val | none => 0xFFFF) ++ number x.stepsRun

/-! ### Sites and runs -/

/-- HALT sets the pause request of the named RUNNING sites that have none, and answers which; CREDIT adds to a site's credit, at most
255, and answers the new credit; a site outside 0..7 and an amount of 0 are BAD_VALUE. -/
def Obligations.HaltAndCreditAnswered : Prop :=
  ∀ s : State, s.Quiet → s.Listening →
    (∀ (tag : Tag) (sites : SiteMask), ∃ p : SiteMask,
      (∀ i : Site, p.getLsbD i = true ↔ sites.getLsbD i = true ∧ s.runs[i].state = .running ∧ s.runs[i].pause = false)
      ∧ exec (.halt tag sites) s = .next ({ s.heard with
          runs := Vector.ofFn fun i : Site => if p.getLsbD i then { s.runs[i] with pause := true } else s.runs[i] }.answer tag
          [0x09, 0, p]))
    ∧ (∀ (tag : Tag) (site amount : Byte), 7 < site.toNat ∨ amount = 0 →
        exec (.credit tag site amount) s = .next (s.heard.answer tag [0x0C, 2]))
    ∧ ∀ (tag : Tag) (i : Site) (amount : Byte), amount ≠ 0 →
        let credit := min (s.results[i].credit + amount.toNat) 255
        exec (.credit tag (BitVec.ofNat 8 i) amount) s = .next ({ s.heard with
          results := s.results.set i { s.results[i] with credit := credit } }.answer tag [0x0C, 0, BitVec.ofNat 8 credit])

/-- START where no named site can be started answers each named site's status in ascending order, and starts nothing. START of one site
begins a run with the next run number and cleared counts, whose first step goes as far as it can: an instrument that is free is held, and
one that another site holds is waited for, within the site's claim wait; a step past its CLAIM puts its patch into the commit queue, within
the site's hold limit, or has none and settles, without an instrument for at least 1 ms, or triggers. What the engine then begins follows,
behind the answer (log 8; log 5 where a hold timer is due). An instrument that is not there or not for the site fails the step. -/
def Obligations.StartActs : Prop :=
  (∀ (tag : Tag) (sites : SiteMask) (s : State), s.Quiet → s.Listening →
      (∀ i : Site, sites.getLsbD i = true → s.startCode i ≠ 0) →
      exec (.start tag sites) s = .next (s.heard.answer tag
        (0x08 :: 0 :: ((List.finRange 8).filter fun i : Site => sites.getLsbD i).map s.startCode)))
  ∧ (∀ (tag : Tag) (sites : SiteMask) (i : Site) (s : State), s.Quiet → s.Listening →
      (∀ j : Site, sites.getLsbD j = true ↔ j = i) → s.startCode i = 0 → (∀ l : LaneId, i ∉ s.claims.records[l].sites) →
      let first := s.tables.sites[i].startStep
      let begun : Run :=
        { state := .running, step := first, number := (s.runs[i].number + 1) % 65536, seq := s.runs[i].seq, pause := false, pass := 0,
          marginal := 0, fail := 0, worst := .none, firstFail := none, stepsRun := 0, ctx := some (s.atStep first .claim none) }
      (s.Enters i first → s.Leads (.start tag sites) ((s.heard.linked i first begun).answer tag [0x08, 0, 0]))
      ∧ ∀ (l : LaneId) (cause : Cause) (next : Option Site), s.tables.steps[first].instrument = some l → s.Refuses i l cause →
          let t := { s.heard with runs := s.runs.set i begun }.answer tag [0x08, 0, 0]
          let x := (s.atStep first .claim none).judging t cause
          t.Judges i x next → s.Leads (.start tag sites) (t.judged i x next))

/-- RESUME changes nothing where no named site is PAUSED; a PAUSED site goes on by its current step's link, to the run's end or to the
linked step, which makes a fresh claim request, and goes as far as it can, as the first step of a run does. What the engine then begins
follows, behind the answer (log 8; log 5 where a hold timer is due). -/
def Obligations.ResumeFollowsLink : Prop :=
  ∀ (tag : Tag) (sites : SiteMask) (s : State), s.Quiet → s.Listening →
    ((∀ i : Site, sites.getLsbD i = true → s.runs[i].state ≠ .paused) →
      exec (.resume tag sites) s = .next (s.heard.answer tag [0x0A, 0, 0]))
    ∧ ∀ i : Site, (∀ j : Site, sites.getLsbD j = true ∧ s.runs[j].state = .paused ↔ j = i) → (∀ l : LaneId, i ∉ s.claims.records[l].sites) →
        let answer : List Byte := [0x0A, 0, BitVec.ofNat 8 (2 ^ i.val)]
        (s.tables.steps[s.runs[i].step].next = none →
          exec (.resume tag sites) s = .next ((s.heard.runEnded i s.runs[i]).answer tag answer))
        ∧ ∀ n : StepId, s.tables.steps[s.runs[i].step].next = some n →
            let resumed : Run := { s.runs[i] with state := .running, step := n, ctx := some (s.atStep n .claim none) }
            (s.Enters i n → s.Leads (.resume tag sites) ((s.heard.linked i n resumed).answer tag answer))
            ∧ ∀ (l : LaneId) (cause : Cause) (next : Option Site), s.tables.steps[n].instrument = some l → s.Refuses i l cause →
                let t := { s.heard with runs := s.runs.set i resumed }.answer tag answer
                let x := (s.atStep n .claim none).judging t cause
                t.Judges i x next → s.Leads (.resume tag sites) (t.judged i x next)

/-- ABORT stops the named sites that are RUNNING or PAUSED, with the flag 1 also those that share a panel with a named site, and answers
which it stopped; another flag is BAD_VALUE. They leave the wait lists, and an instrument that they give up goes, when all are aborted (log
7), to the first site that still waits, whose step then applies; a trigger is withdrawn by a CAN frame, in ascending order of the sites.
Where a transition is in flight the SITE-OPENs wait behind it; where the engine is free, the oldest commit that is not held then begins,
behind the answer (log 8), be it one that a released claim frees or a SITE-OPEN (log 5 where its hold timer is due). -/
def Obligations.AbortStopsSites : Prop :=
  ∀ (tag : Tag) (sites : SiteMask) (panel : Byte) (s : State), s.Quiet → s.Listening →
    (1 < panel.toNat → exec (.abort tag sites panel) s = .next (s.heard.answer tag [0x0B, 2]))
    ∧ (panel.toNat ≤ 1 → s.ClaimsOrdered → s.WaitersClaim → ∃ p : SiteMask,
        (∀ i : Site, p.getLsbD i = true ↔ s.runs[i].state ≠ .idle ∧ (sites.getLsbD i = true
          ∨ panel = 1 ∧ ∃ j : Site, sites.getLsbD j = true ∧ s.tables.sites[i].panel = s.tables.sites[j].panel))
        ∧ let why (i : Site) : Option EndCause :=
            if p.getLsbD i then some (if sites.getLsbD i then .abortHost else .abortPanel) else none
          (∀ next : Option Site, s.Hands (fun i => p.getLsbD i) next → (next = none ∨ (s.heard.stopped why true).Idles) →
            s.Leads (.abort tag sites panel) (((s.heard.stopped why true).handedOn next).answer tag [0x0B, 0, p]))
          ∧ ∀ i : Site, (∀ j : Site, p.getLsbD j = true ↔ j = i) → s.Hands (fun j => p.getLsbD j) none →
              s.tables.sites[i].openOnAbort = true → 1 ≤ s.tables.sites[i].holdLimit → s.engine.flight = none → s.engine.queue = [] →
              (∀ c : ChannelId, s.tables.channels[c].attach = none) →
              let onPins := s.matrix.image &&& onAnyBus (extent s.tables.sites[i])
              (onPins = 0 → exec (.abort tag sites panel) s = .next ((s.heard.stopped why false).answer tag [0x0B, 0, p]))
              ∧ (onPins ≠ 0 →
                  exec (.abort tag sites panel) s = .next
                    (((s.heard.stopped why false).answer tag [0x0B, 0, p]).breaking (.siteOpen i) onPins 0)))

/-- A PRESENT input that takes a new level sends EVT BOARD; a removal aborts the site, with the cause ABSENT, and the sites of its panel,
where it is RUNNING or PAUSED: they leave the wait lists, an instrument that they give up is handed on when all are aborted (log 7) to a
step that then applies, triggers are withdrawn in ascending order of the sites, and the engine, where it is free, begins the oldest commit
that is not held (log 5 where its hold timer is due). A level that stands changes nothing. -/
def Obligations.PresentChangeActs : Prop :=
  ∀ (i : Site) (level : Bool) (s : State), s.AtRest →
    (s.inputs.present[i] = level → exec (.presentChange i level) s = .next s)
    ∧ (s.inputs.present[i] ≠ level →
        let u := { s with inputs := { s.inputs with present := s.inputs.present.set i level } }.eventRaised (.board i level)
        (level = true ∨ s.runs[i].state = .idle → exec (.presentChange i level) s = .next u)
        ∧ (level = false → s.runs[i].state ≠ .idle → s.ClaimsOrdered → s.WaitersClaim →
            let why (j : Site) : Option EndCause :=
              if s.tables.sites[j].panel ≠ s.tables.sites[i].panel ∨ s.runs[j].state = .idle then none
              else some (if j = i then .absent else .abortPanel)
            ∀ next : Option Site, s.Hands (fun j => (why j).isSome) next →
            (next = none ∨ (u.stopped why true).Idles) → s.Leads (.presentChange i level) ((u.stopped why true).handedOn next)))

/-! ### The matrix and the transition engine -/

/-- The crosspoint engine. The buses of a set, the crosspoints on a site's pins, and the relay time of a set of buses, the greatest of its
relay types. What one patch operation leaves at each crosspoint: a crosspoint of its groups, on a bus of its bus-enable set and at a flag of
its skewed mask, takes the combination of its connection with the data flag, which a force set fixes and else the skewed pattern gives;
every other crosspoint stays. The relay driver chain: the values are shifted from position 3,071 down to 0, a shift moves the chain one
position up, the strobe gives the drivers the chain's pattern, and all of it leaves the pattern in the chain and the drivers, whatever stood
there. -/
def Obligations.CrosspointSets : Prop :=
  (∀ (x : Crosspoints) (b : Bus), (busesIn x).getLsbD b = true ↔ ∃ p, p < 384 ∧ x.getLsbD (384 * b + p) = true)
  ∧ (∀ (e : SiteEntry) (b : Bus) (p : Nat), p < 384 →
      ((onAnyBus (extent e)).getLsbD (384 * b + p) = true ↔ 32 * e.firstGroup ≤ p ∧ p < 32 * (e.firstGroup + e.groupCount)))
  ∧ (∀ (t : Tables) (f : RelayType → Nat) (buses : BusSet),
      (∀ b : Bus, buses.getLsbD b = true → f t.relays[t.buses[b].relayType] ≤ relayTime t f buses)
      ∧ (relayTime t f buses = 0 ∨ ∃ b : Bus, buses.getLsbD b = true ∧ f t.relays[t.buses[b].relayType] = relayTime t f buses))
  ∧ (∀ (op : PatchOp) (base skew : Nat) (copy : Crosspoints) (b : Bus) (p : Nat), p < 384 → skew ≤ 31 →
      base + op.group + op.rep ≤ 11 →
      let flag := (p + 32 - skew) % 32
      let present := copy.getLsbD (384 * b + p)
      let data := op.forceClose.getLsbD b || (!op.force.getLsbD b && op.pattern.getLsbD flag)
      (op.apply base skew copy).getLsbD (384 * b + p) =
        if op.enable.getLsbD b = true ∧ op.mask.getLsbD flag = true ∧ base + op.group ≤ p / 32 ∧ p / 32 ≤ base + op.group + op.rep then
          match op.kind with
          | .set => data
          | .join => present || data
          | .cut => present && !data
          | .flip => xor present data
        else present)
  ∧ ∀ (m : Matrix) (x : Crosspoints),
      (∀ k : Nat, k < 3072 → (chainSignals x)[k]? = some (.shift (x.getLsbD (3071 - k))))
      ∧ chainSignals x = (chainSignals x).take 3072 ++ [.strobe]
      ∧ (∀ value : Bool, m.signal (.shift value) = { m with chain := (m.signal (.shift value)).chain }
          ∧ ∀ k : Nat, k < 3072 → (m.signal (.shift value)).chain.getLsbD k = if k = 0 then value else m.chain.getLsbD (k - 1))
      ∧ m.signal .strobe = { m with drivers := m.chain }
      ∧ (chainSignals x).foldl Matrix.signal m = { m with chain := x, drivers := x }

/-- The checks on a finished copy, and the condition of being held: a commit without override that touches a bus with an attached
channel that is not OFF, or whose instrument another site than the commit's own holds. -/
def Obligations.ChecksAndHolds : Prop :=
  (∀ (buses : Vector BusEntry 8) (x : Crosspoints), hasExclusion buses x = true ↔
    ∃ a b : Bus, a ≠ b ∧ (buses[a].exclusion.getLsbD b = true ∨ buses[b].exclusion.getLsbD a = true)
      ∧ ∃ p, p < 384 ∧ x.getLsbD (384 * a + p) = true ∧ x.getLsbD (384 * b + p) = true)
  ∧ (∀ (buses : Vector BusEntry 8) (sites : Vector SiteEntry 8) (x : Crosspoints), hasForeign buses sites x = true ↔
      ∃ (b : Bus) (i : Site) (p : Nat), buses[b].owner = some i ∧ p < 384 ∧ x.getLsbD (384 * b + p) = true
        ∧ ¬(32 * sites[i].firstGroup ≤ p ∧ p < 32 * (sites[i].firstGroup + sites[i].groupCount)))
  ∧ ∀ (s : State) (c : Commit), held s c = true ↔
      (∀ tag ops, c.work ≠ .host tag true ops)
      ∧ ∃ b : Bus, (match c.work, c.place with
          | .host _ _ ops, _ => ∃ op ∈ ops, op.enable.getLsbD b = true ∨ op.force.getLsbD b = true
          | .step p, _ => ∃ op ∈ s.tables.patches[p], op.enable.getLsbD b = true ∨ op.force.getLsbD b = true
          | .siteOpen, .site i => ∃ p, p < 384 ∧ s.matrix.image.getLsbD (384 * b + p) = true
              ∧ 32 * s.tables.sites[i].firstGroup ≤ p
              ∧ p < 32 * (s.tables.sites[i].firstGroup + s.tables.sites[i].groupCount)
          | .siteOpen, .host _ => False)
        ∧ ∃ ch : ChannelId, s.tables.channels[ch].attach = some b
            ∧ (s.tables.channels[ch].output ≠ .off
              ∨ ∃ h : Site, s.claims.records[laneOfChannel ch].holder = some h
                  ∧ ¬∃ p, c.work = .step p ∧ c.place = .site h)

/-- PATCH turned away or waiting: BAD_VALUE for a flag or an operation out of range, SAFE in the SAFE state, BUSY when all four host
places are taken; a commit that cannot begin takes the lowest free host place (log 12), and with a hold limit of 0 is answered
HOLD_TIMEOUT at once. -/
def Obligations.PatchRefusedOrWaits : Prop :=
  ∀ (tag : Tag) (override : Byte) (hold : Half) (ops : List OpRaw) (s : State), s.Quiet → s.Listening →
    (Request.patch override hold ops).wf = true →
    let good := override.toNat ≤ 1 ∧ ops.length ≤ 8
      ∧ ∀ op ∈ ops, (OpRaw.read op).isSome ∧ op.group.toNat + op.rep.toNat ≤ 11
    let writes := ops.filterMap OpRaw.read
    (¬good → exec (.patch tag override hold ops) s = .next (s.heard.answer tag [0x05, 2]))
    ∧ (good → s.protection.safe = true → exec (.patch tag override hold ops) s = .next (s.heard.answer tag [0x05, 5]))
    ∧ (good → s.protection.safe = false → (∀ k : Fin 4, ∃ c ∈ s.engine.queue, c.place = .host k) →
        exec (.patch tag override hold ops) s = .next (s.heard.answer tag [0x05, 4]))
    ∧ ∀ k : Fin 4, good → s.protection.safe = false → (∀ c ∈ s.engine.queue, c.place ≠ .host k) →
        (∀ j : Fin 4, j < k → ∃ c ∈ s.engine.queue, c.place = .host j) →
        (s.engine.flight ≠ none ∨ (override = 0 ∧ ∃ op ∈ writes, ∃ b : Bus,
          (op.enable.getLsbD b = true ∨ op.force.getLsbD b = true) ∧ ∃ ch : ChannelId,
            s.tables.channels[ch].attach = some b ∧ s.tables.channels[ch].output ≠ .off)) →
        (hold = 0 → exec (.patch tag override hold ops) s = .next (s.heard.answer tag [0x05, 11]))
        ∧ (hold ≠ 0 → exec (.patch tag override hold ops) s = .next { s.heard with
            engine := { s.engine with
              queue := s.engine.queue ++ [{ place := .host k, work := .host tag (override == 1) writes, holdLimit := hold.toNat,
                                            remaining := hold.toNat * 1000 }] } })

/-- PATCH that begins at once, the engine free and no commit waiting, with override or where no channel is attached to a bus: refused
EXCLUSION or BUS_FOREIGN, answered OK with the count 0 when nothing changes, and else in its break phase, or in its make phase where it
opens nothing. -/
def Obligations.PatchBegins : Prop :=
  ∀ (tag : Tag) (override : Byte) (hold : Half) (ops : List OpRaw) (s : State), s.Quiet → s.Listening →
    (Request.patch override hold ops).wf = true → override.toNat ≤ 1 → ops.length ≤ 8 →
    (∀ op ∈ ops, (OpRaw.read op).isSome ∧ op.group.toNat + op.rep.toNat ≤ 11) →
    s.protection.safe = false → s.engine.flight = none → s.engine.queue = [] →
    (override = 1 ∨ ∀ c : ChannelId, s.tables.channels[c].attach = none) →
    let copy := (ops.filterMap OpRaw.read).foldl (fun x op => op.apply 0 0 x) s.matrix.image
    let opening := s.matrix.image &&& ~~~copy
    let closing := copy &&& ~~~s.matrix.image
    (hasExclusion s.tables.buses copy = true → exec (.patch tag override hold ops) s = .next (s.heard.answer tag [0x05, 8]))
    ∧ (hasExclusion s.tables.buses copy = false → hasForeign s.tables.buses s.tables.sites copy = true →
        exec (.patch tag override hold ops) s = .next (s.heard.answer tag [0x05, 9]))
    ∧ (hasExclusion s.tables.buses copy = false → hasForeign s.tables.buses s.tables.sites copy = false →
        exec (.patch tag override hold ops) s = .next
          (if copy = s.matrix.image then s.heard.answer tag [0x05, 0, 0, 0]
           else if opening = 0 then s.heard.making (.host tag) 0 closing
           else s.heard.breaking (.host tag) opening closing))

/-- The engine chooses when it is free: a pending opening begins first; else the oldest commit that is not held leaves the queue and begins,
past held ones. A PATCH is refused or answered, or its transition starts; a STEP commit is evaluated with the base group and skew of its
site, and a patch beyond the site's extent, EXCLUSION and BUS_FOREIGN fail the step; a SITE-OPEN opens the site's pins. A commit whose hold
timer runs out at the same instant begins or expires, which is open (log 5). The engine becomes free here when a transition that is no
step's completes and its originator is told; and a commit is no longer held when the collection of a step ends and its claim is released
(other causes: AbortStopsSites, PresentChangeActs, LaneTablesWritten, UngatedTablesWritten, LaneTrafficRouted). The answer of the completed
originator stands ahead of what the next commit or opening is answered (log 8). A PATCH that SAFE cut is answered CANCELLED when its break
ends (log 9). The remaining time of the phase or the collection passes for all timers (the model's choice, log 3). -/
def Obligations.CommitsBegin : Prop :=
  (∀ (command : Instr) (s : State) (f : Transition), s.AtRest → s.engine.flight = some f → (∀ i : Site, f.kind ≠ .step (some i)) →
    ((command = .breakPhaseEnd ∧ f.phase = .breaking ∧ (f.cut = true ∨ f.closing = 0))
      ∨ (command = .makePhaseEnd ∧ f.phase = .making)) →
    let u := (s.elapse f.remaining).freed.told f
    (s.engine.openings = [] → s.Leads command u)
    ∧ ∀ (k : OpenKind) (rest : List OpenKind), s.engine.openings = k :: rest →
      (s.matrix.image ≠ 0 → exec command s = .next
        ({ u with engine := { u.engine with openings := rest } }.breaking (.opening k) s.matrix.image 0))
      ∧ (s.matrix.image = 0 → rest = [] → s.engine.queue = [] →
          (k = .safeOpen → exec command s = .next { u with
            engine := { u.engine with openings := [] }, protection := { u.protection with openDone := true } })
          ∧ ∀ tag : Tag, k = .runOpen → u.trunk.resetRun = some tag → exec command s = .next ({ u with
              engine := { u.engine with openings := [] }, trunk := { u.trunk with resetRun := none } }.answer tag [0x13, 0])))
  ∧ ∀ (i : Site) (c : StepContext) (l : LaneId) (d : Nat) (tag : Tag) (s : State), s.AtRest →
      s.runs[i].state = .running → s.runs[i].ctx = some c → c.phase = .collect → c.cause = .ok → c.entry.instrument = some l →
      c.collectTimer = some d → c.tag = some tag →
      let u := (s.elapse d).laneSent l 0x31 tag [BitVec.ofNat 8 c.entry.channel]
      let x := if c.samples = [] then c.judging u .collectTimeout else { c with short := true }.judging u .ok
      (u.withQueue []).Judges i x none → u.follows i (x.having (u.recordsNow i x)) = none →
      s.Leads (.collectTimerExpire i) (u.judged i x none)

/-- The end of a break phase starts the make phase, in which the whole closing set joins the image (log 29 on a crosspoint that has become
foreign); neither phase's end does anything where no such phase runs (log 4). A transition completes, nothing behind it but held commits:
the engine is free, the flags are down and the originator is told. A step goes on to SETTLE, with nothing to settle to its trigger, or fails
where its lane is not UP, and what the engine then begins follows (log 5 where a hold timer is due); PATCH is answered OK with the number of
crosspoints changed, or CANCELLED where SAFE cut it (log 9); the completed SAFE-OPEN is recorded; RESET RUN is answered. The phase's
remaining time passes for all timers (the model's choice, log 3). -/
def Obligations.PhasesEnd : Prop :=
  (∀ s : State, s.AtRest →
      (∀ f : Transition, s.engine.flight = some f → f.phase = .breaking → f.cut = false → f.closing ≠ 0 →
        exec .breakPhaseEnd s = .next ((s.elapse f.remaining).making f.kind f.opening f.closing))
      ∧ ((∀ f : Transition, s.engine.flight = some f → f.phase ≠ .breaking) → exec .breakPhaseEnd s = .next s)
      ∧ ((∀ f : Transition, s.engine.flight = some f → f.phase ≠ .making) → exec .makePhaseEnd s = .next s))
  ∧ (∀ (c : Instr) (s : State) (f : Transition), s.AtRest → s.engine.flight = some f → s.engine.openings = [] →
      ((c = .breakPhaseEnd ∧ f.phase = .breaking ∧ (f.cut = true ∨ f.closing = 0)) ∨ (c = .makePhaseEnd ∧ f.phase = .making)) →
      let u := (s.elapse f.remaining).freed
      (∀ x ∈ u.engine.queue, held u x = true) →
      let changed (x : Crosspoints) : Nat := ((List.range 3072).filter fun k => x.getLsbD k).length
      (f.kind = .step none → exec c s = .next u)
      ∧ (∀ i : Site, f.kind = .siteOpen i → exec c s = .next u)
      ∧ (∀ tag : Tag, f.kind = .host tag → exec c s = .next (u.answer tag
          (if f.cut then [0x05, 12] else [0x05, 0] ++ bytes2 (BitVec.ofNat 16 (changed f.opening + changed f.closing)))))
      ∧ (f.kind = .opening .safeOpen → exec c s = .next { u with protection := { u.protection with openDone := true } })
      ∧ (∀ tag : Tag, f.kind = .opening .runOpen → s.trunk.resetRun = some tag →
          exec c s = .next ({ u with trunk := { u.trunk with resetRun := none } }.answer tag [0x13, 0]))
      ∧ ∀ (i : Site) (x : StepContext), f.kind = .step (some i) → s.runs[i].state = .running → u.runs[i].ctx = some x →
          (x.entry.instrument = none ∨ x.entry.settle ≠ 0 → exec c s = .next (u.settling i))
          ∧ ∀ l : LaneId, x.entry.instrument = some l → x.entry.settle = 0 →
              (s.lanes[l].state = .up → exec c s = .next (u.triggered i x l))
              ∧ (s.lanes[l].state ≠ .up → ∀ next : Option Site, u.Judges i (x.judging u .lane) next →
                  s.Leads c (u.failed i .lane next)))

/-- A hold timer runs out: the commit leaves the queue, a PATCH is answered HOLD_TIMEOUT, a SITE-OPEN sends EVT OPEN_EXPIRED. At a place
without a commit nothing happens (log 4). The timer's remaining time passes for all timers (the model's choice, log 3). -/
def Obligations.HoldExpires : Prop :=
  ∀ (s : State) (p : Place), s.AtRest →
    ((∀ c ∈ s.engine.queue, c.place ≠ p) → exec (.holdTimerExpire p) s = .next s)
    ∧ ∀ (before after : List Commit) (c : Commit), s.engine.queue = before ++ c :: after → c.place = p →
        (∀ x ∈ before, x.place ≠ p) →
        let u := s.elapse c.remaining
        let left := { u with
          engine := { u.engine with queue := (before ++ after).map fun x : Commit => { x with remaining := x.remaining - c.remaining } } }
        (∀ tag override ops, c.work = .host tag override ops → (∃ k, p = .host k) →
          exec (.holdTimerExpire p) s = .next (left.answer tag [0x05, 11]))
        ∧ ∀ i : Site, p = .site i → c.work = .siteOpen → s.runs[i].state = .idle →
            exec (.holdTimerExpire p) s = .next (left.eventRaised (.openExpired i))

/-! ### Steps -/

/-- A settle time ends: a step without an instrument is released, by which its site pauses for a pending HALT, ends its run, or goes on to
the linked step, which goes as far as it can: to its patch in the commit queue, of which the engine may begin a commit (log 5 where a hold
timer is due), to its wait for an instrument, to SETTLE or to its trigger; a step with an instrument triggers it on an UP lane, also past a
full transmit queue. Where no step settles nothing happens (log 4). The timer's remaining time passes for all timers (the model's choice,
log 3). -/
def Obligations.SettleEnds : Prop :=
  ∀ (i : Site) (s : State), s.AtRest →
    ((∀ c : StepContext, s.runs[i].ctx = some c → c.phase ≠ .settle) → exec (.settleTimerEnd i) s = .next s)
    ∧ ∀ (d : Nat) (c : StepContext), s.runs[i].state = .running → s.runs[i].ctx = some c → c.phase = .settle →
        c.settleTimer = some d →
        let u := s.elapse d
        (∀ next : Option Site, c.entry.instrument = none → u.ReleasesTo i c next →
          s.Leads (.settleTimerEnd i) (u.released i c next))
        ∧ ∀ l : LaneId, c.entry.instrument = some l → s.lanes[l].state = .up →
            exec (.settleTimerEnd i) s = .next (u.triggered i c l)

/-- A step fails: when its wait for an instrument, its hold or its collection without a sample runs out, and when its lane is not UP at its
trigger. Its record, with NODATA and the cause, is placed where there is a place, and the step released: the instrument it held is free or
goes to the first site that waits, whose step then applies; its site pauses, ends its run or goes on by its link. A trigger that was sent is
withdrawn. What the engine then begins follows (log 5 where a hold timer is due). The timer's remaining time passes for all timers (the
model's choice, log 3). -/
def Obligations.StepFails : Prop :=
  ∀ (i : Site) (c : StepContext) (next : Option Site) (s : State), s.AtRest → s.runs[i].state = .running → s.runs[i].ctx = some c →
    (∀ (l : LaneId) (d : Nat), c.phase = .claim → s.ClaimsOrdered → i ∈ s.claims.records[l].waits → s.claims.timers[i] = some d →
      let t := (s.elapse d).claimsLeft fun j => decide (j = i)
      t.Judges i (c.judging t .claimTimeout) next →
      s.Leads (.claimWaitTimerExpire i) (t.judged i (c.judging t .claimTimeout) next))
    ∧ (∀ (p : PatchId) (before rest : List Commit) (x : Commit), c.phase = .apply → s.engine.queue = before ++ x :: rest →
        x.place = .site i → x.work = .step p → (∀ y ∈ before, y.place ≠ .site i) →
        let u := s.elapse x.remaining
        let t := { u with
          engine := { u.engine with queue := (before ++ rest).map fun y : Commit => { y with remaining := y.remaining - x.remaining } } }
        t.Judges i (c.judging t .holdTimeout) next →
        s.Leads (.holdTimerExpire (.site i)) (t.judged i (c.judging t .holdTimeout) next))
    ∧ ∀ (l : LaneId) (d : Nat), c.entry.instrument = some l →
        let u := s.elapse d
        (∀ tag : Tag, c.phase = .collect → c.collectTimer = some d → c.samples = [] → c.tag = some tag →
          let t := u.laneSent l 0x31 tag [BitVec.ofNat 8 c.entry.channel]
          t.Judges i (c.judging t .collectTimeout) next →
          s.Leads (.collectTimerExpire i) (t.judged i (c.judging t .collectTimeout) next))
        ∧ (c.phase = .settle → c.settleTimer = some d → s.lanes[l].state ≠ .up → u.Judges i (c.judging u .lane) next →
            s.Leads (.settleTimerEnd i) (u.judged i (c.judging u .lane) next))

/-- A step that collects on an UP lane: a reading that leaves samples missing is kept with them; one that completes the set is judged at
once, its surplus discarded; the end of the collect time judges the short set and withdraws the trigger. A reading passes the taps first,
the order of whose events is open (log 5). The records, one in AVERAGE mode and one for each sample in SERIES mode, are placed and counted
while there are places; with the last of them the step is released, and its site goes on by its link, the instrument to the first site that
waits. What the engine then begins follows (log 5 where a hold timer is due). The timer's remaining time passes for all timers (the model's
choice, log 3). -/
def Obligations.ReadingsCollected : Prop :=
  ∀ (i : Site) (c : StepContext) (l : LaneId) (s : State), s.AtRest → s.runs[i].state = .running → s.runs[i].ctx = some c →
    c.phase = .collect → c.cause = .ok → c.entry.instrument = some l →
    (∀ (bytes : List Byte) (f : Frame) (samples : List Sample), readFrame bytes = some f → f.kind = 0x20 →
      s.claims.records[l].holder = some i → s.lanes[l].state = .up → s.runs[i].seq < 4096 →
      f.tag = BitVec.ofNat 16 (0x8000 + 4096 * i + s.runs[i].seq) → f.source = s.tables.instruments[l].node → f.source ≠ 0 →
      readReading f.payload = some (c.entry.channel, samples) →
      let room := c.entry.sampleCode + 1 - c.samples.length
      ∃ u : State, State.TappedBy { s with lanes := s.lanes.set l { s.lanes[l] with badRun := 0 } } f (some (i, s.runs[i].step)) u
        ∧ (samples.length < room → exec (.laneFrameReceive l false bytes) s = .next { u with
            runs := s.runs.set i { s.runs[i] with ctx := some { c with samples := c.samples ++ samples } } })
        ∧ (c.samples.length ≤ c.entry.sampleCode → room ≤ samples.length →
            let x := { c with samples := c.samples ++ samples.take room, extra := c.extra || decide (room < samples.length) }.judging u .ok
            ∀ next : Option Site, u.Judges i x next → s.Leads (.laneFrameReceive l false bytes) (u.judged i x next)))
    ∧ ∀ (d : Nat) (tag : Tag) (next : Option Site), c.collectTimer = some d → c.samples ≠ [] → c.tag = some tag →
        let u := (s.elapse d).laneSent l 0x31 tag [BitVec.ofNat 8 c.entry.channel]
        let x := { c with short := true }.judging u .ok
        u.Judges i x next → s.Leads (.collectTimerExpire i) (u.judged i x next)

/-- The division of the conversion: the quotient of the magnitudes, rounded up from one half on, with the dividend's sign. It is the
integer nearest to the exact quotient, and of two the one farther from zero. The mean of the corrected counts and the scaling by the gain
are this division. -/
def Obligations.DivisionRounds : Prop :=
  (∀ (a : Int) (b : Nat), 0 < b →
    roundDiv a b = (if a < 0 then -1 else 1) * (a.natAbs / b + if 2 * (a.natAbs % b) ≥ b then 1 else 0 : Nat)
    ∧ roundDiv (-a) b = -roundDiv a b
    ∧ ∀ q : Int, roundDiv a b = q ↔
        2 * (q * b - a).natAbs ≤ b ∧ (2 * (q * b - a).natAbs = b → a.natAbs < (q * b).natAbs))
  ∧ (∀ (cal : Calibration) (samples : List Sample),
      rawMean cal samples = roundDiv ((samples.map fun x => x.raw - cal.offset).sum) samples.length)
  ∧ ∀ (cal : Calibration) (m : Int), scaled cal m = roundDiv (m * cal.gain) 16384

/-- A judgement: the mean of the offset-corrected counts, scaled by the gain and clamped to 24 bits; NODATA without samples, FAIL_RANGE
for an overranged or saturated one, NONE without a limit, and a PASS of a short or disturbed measurement lowered to MARGINAL. -/
def Obligations.JudgementFollowsRules : Prop :=
  ∀ (samples : List Sample) (cal : Calibration) (limit : Option LimitEntry) (short disturbed : Bool),
    (judge [] cal limit short disturbed = { verdict := .noData, value := none, mean := none, overrange := false, sat := false })
    ∧ (samples ≠ [] →
        let mean := roundDiv ((samples.map fun x => x.raw - cal.offset).sum) samples.length
        let u := roundDiv (mean * cal.gain) 16384
        let j := judge samples cal limit short disturbed
        let raw := limitVerdict limit (max (-8388608) (min 8388607 u))
        j.mean = some mean ∧ j.value = some (max (-8388608) (min 8388607 u))
        ∧ (j.overrange = true ↔ ∃ x ∈ samples, x.overrange = true)
        ∧ (j.sat = true ↔ u < -8388608 ∨ 8388607 < u)
        ∧ (j.overrange = true ∨ j.sat = true → j.verdict = .failRange)
        ∧ (j.overrange = false → j.sat = false →
            j.verdict = if raw = .pass ∧ (short = true ∨ disturbed = true) then .marginal else raw))
    ∧ (∀ v : Int, limitVerdict none v = .none) ∧ ∀ (e : LimitEntry) (v : Int), e.mode = .record → limitVerdict (some e) v = .none

/-- The verdict under a limit of mode BOTH, and under one of mode LOW or HIGH. -/
def Obligations.LimitsDecide : Prop :=
  (∀ (e : LimitEntry) (v : Int), e.mode = .both →
    (limitVerdict (some e) v = .failLow ↔ v < e.low)
    ∧ (limitVerdict (some e) v = .failHigh ↔ e.low ≤ v ∧ e.high < v)
    ∧ (limitVerdict (some e) v = .pass ↔ e.low ≤ v ∧ v ≤ e.high ∧ e.low + e.guard ≤ v ∧ v ≤ e.high - e.guard)
    ∧ (limitVerdict (some e) v = .marginal ↔ e.low ≤ v ∧ v ≤ e.high ∧ ¬(e.low + e.guard ≤ v ∧ v ≤ e.high - e.guard))
    ∧ (e.guard = 0 → e.low ≤ v → v ≤ e.high → limitVerdict (some e) v = .pass)
    ∧ (e.low + e.guard > e.high - e.guard → e.low ≤ v → v ≤ e.high → limitVerdict (some e) v = .marginal)
    ∧ (e.low = e.high → e.guard = 0 → (limitVerdict (some e) v = .pass ↔ v = e.low)
        ∧ (v ≠ e.low → limitVerdict (some e) v = .failLow ∨ limitVerdict (some e) v = .failHigh)))
  ∧ ∀ (e : LimitEntry) (v : Int),
    (e.mode = .low →
      limitVerdict (some e) v = (if v < e.low then .failLow else if v ≥ e.low + e.guard then .pass else .marginal)
      ∧ (∀ h : Int, limitVerdict (some { e with high := h }) v = limitVerdict (some e) v)
      ∧ limitVerdict (some e) v ≠ .failHigh ∧ (e.guard = 0 → limitVerdict (some e) v ≠ .marginal))
    ∧ (e.mode = .high →
        limitVerdict (some e) v = (if v > e.high then .failHigh else if v ≤ e.high - e.guard then .pass else .marginal)
        ∧ (∀ l : Int, limitVerdict (some { e with low := l }) v = limitVerdict (some e) v)
        ∧ limitVerdict (some e) v ≠ .failLow ∧ (e.guard = 0 → limitVerdict (some e) v ≠ .marginal))

/-! ### SAFE, RESET RUN and full reset -/

/-- SET SILENCE sets the setting, 0..80 tenths of a second, and outside SAFE starts the timer from it; CLEAR SAFE leaves SAFE, with EVT
SAFE_CLEAR and the silence timer started, unless SAFE-REQ is asserted or the matrix is not yet open. -/
def Obligations.SilenceAndClearSafe : Prop :=
  ∀ (tag : Tag) (s : State), s.Quiet → s.Listening →
    let timer (n : Nat) : Option Nat := if n = 0 then none else some (n * 100000)
    (∀ x : Byte, 80 < x.toNat → exec (.setSilence tag x) s = .next (s.heard.answer tag [0x10, 2]))
    ∧ (∀ x : Byte, x.toNat ≤ 80 → exec (.setSilence tag x) s = .next ({ s.heard with
        protection := { s.protection with
          setting := x.toNat, timer := if s.protection.safe then none else timer x.toNat } }.answer tag [0x10, 0]))
    ∧ (s.protection.safe = false → exec (.clearSafe tag) s = .next (s.heard.answer tag [0x12, 0]))
    ∧ (s.protection.safe = true → (s.inputs.safeReq = true ∨ s.protection.openDone = false) →
        exec (.clearSafe tag) s = .next (s.heard.answer tag [0x12, 13]))
    ∧ (s.protection.safe = true → s.inputs.safeReq = false → s.protection.openDone = true →
        exec (.clearSafe tag) s = .next (({ s.heard with
          protection := { s.protection with safe := false, causes := 0, timer := timer s.protection.setting } }.answer tag
          [0x12, 0]).eventRaised .safeClear))

/-- The entry to SAFE by request, input or silence: every site is aborted with a summary, its claims are given up and its trigger withdrawn
by a CAN frame, in ascending order of the sites; the waiting commits are gone, a break phase has no make phase to come, UP lanes are sent
OFF, in ascending order of the lanes (both orders are the model's choice, log 23), and the whole matrix is opened at once or behind the
transition in flight. The order of the CANCELLED answers is open (log 5); they stand ahead of the answer to ENTER SAFE (log 8). The silence
timer's remaining time passes for all timers (the model's choice, log 3). -/
def Obligations.SafeEntered : Prop :=
  ∀ s : State, s.AtRest → s.protection.safe = false → s.ClaimsOrdered → s.WaitersClaim →
    let entered (u : State) (cause : CauseSet) (t : State) : Prop := ∃ (answers : List Tag) (n : Nat),
      answers.Perm u.hostTags
      ∧ let v := u.safeEntered cause answers n
        t = if u.engine.flight ≠ none then
              { v with
                engine := { v.engine with
                  openings := if .safeOpen ∈ u.engine.openings then u.engine.openings else u.engine.openings ++ [.safeOpen] } }
            else if u.matrix.image = 0 then { v with protection := { v.protection with openDone := true } }
            else v.breaking (.opening .safeOpen) u.matrix.image 0
    (∀ tag : Tag, s.Listening → ∃ t : State, entered s.heard 0b1000 t ∧ exec (.enterSafe tag) s = .next (t.answer tag [0x11, 0]))
    ∧ (s.inputs.safeReq = false → ∃ t : State,
        entered { s with inputs := { s.inputs with safeReq := true } } 0b0100 t ∧ exec .safeReqAssert s = .next t)
    ∧ ∀ d : Nat, s.protection.timer = some d → ∃ t : State,
        entered (s.elapse d) 0b0010 t ∧ exec .silenceTimerExpire s = .next t

/-- In SAFE a further cause is added and nothing else follows; SAFE-REQ alone changes its level when it is released, and a level that stands
raises nothing; that this holds while RST-N is low too is the model's reading (log 18). The silence timer's remaining time passes for all
timers (the model's choice, log 3). -/
def Obligations.SafeCauseAdded : Prop :=
  ∀ s : State,
    exec .safeReqRelease s = .next { s with inputs := { s.inputs with safeReq := false } }
    ∧ (s.inputs.safeReq = true → exec .safeReqAssert s = .next s)
    ∧ (s.AtRest → s.protection.safe = true →
        (∀ tag : Tag, s.Listening → exec (.enterSafe tag) s = .next ({ s.heard with
          protection := { s.heard.protection with causes := s.protection.causes ||| 0b1000 } }.answer tag [0x11, 0]))
        ∧ (s.inputs.safeReq = false → exec .safeReqAssert s = .next { s with
            inputs := { s.inputs with safeReq := true }
            protection := { s.protection with causes := s.protection.causes ||| 0b0100 } })
        ∧ ∀ d : Nat, s.protection.timer = some d → exec .silenceTimerExpire s = .next { s.elapse d with
            protection := { s.protection with causes := s.protection.causes ||| 0b0010, timer := none } })

/-- RESET FULL is answered OK, after which no request is taken. RESET RUN: BUSY while one is unanswered; else the sites stop without
summaries, in ascending order (log 23), with triggers withdrawn by CAN frames; claims, commits, records, credit and tap captures are gone,
and the matrix is opened at once or behind the transition in flight. It is answered when the opening is complete, behind the CANCELLED
answers (log 8), the order of which is open (log 5). -/
def Obligations.ResetRequestsAct : Prop :=
  (∀ (tag : Tag) (s : State), s.Quiet → s.Listening →
      let t := s.heard.answer tag [0x14, 0]
      exec (.resetFull tag) s = .next { t with trunk := { t.trunk with closed := true } })
  ∧ (∀ (tag : Tag) (s : State), s.Quiet → s.Listening →
      (s.trunk.resetRun ≠ none → exec (.resetRun tag) s = .next (s.heard.answer tag [0x13, 4]))
      ∧ (s.trunk.resetRun = none → ∃ (answers : List Tag) (n : Nat),
          answers.Perm s.hostTags
          ∧ let v := State.cancelled
              { s.heard.withdrawn fun _ => true with
                claims := { records := Vector.replicate 12 { holder := none, waits := [] }, timers := Vector.replicate 8 none }
                runs := Vector.ofFn fun i : Site => { s.runs[i] with state := .idle, seq := 0, pause := false, ctx := none }
                results := Vector.ofFn fun i : Site => { s.results[i] with records := [], summary := none, credit := 0 }
                taps := Vector.ofFn fun t : TapId => { s.taps[t] with fresh := false, last := none, attribution := none, overrun := 0 }
                engine := { s.engine with
                  queue := []
                  flight := s.engine.flight.map fun f => match f.kind with
                    | .step _ => { f with kind := .step none }
                    | _ => f }
                freeCount := n } answers
            let unanswered : State := { v with trunk := { v.trunk with resetRun := some tag } }
            exec (.resetRun tag) s = .next
              (if s.engine.flight ≠ none then
                { unanswered with
                  engine := { v.engine with
                    openings := if .runOpen ∈ s.engine.openings then s.engine.openings else s.engine.openings ++ [.runOpen] } }
              else if s.matrix.image = 0 then v.answer tag [0x13, 0]
              else unanswered.breaking (.opening .runOpen) s.matrix.image 0)))

/-- The full reset, at the end of the RESET FULL response, at power-on and at both edges of RST-N: every block at its reset values under
the input levels and line conditions found, with SAFE_ENTER and a LANE_CALL for each answering card, in an order that is open (log 5).
The levels at power-on and the second reset are the model's reading (log 18). Without its cause nothing happens (log 4). -/
def Obligations.FullResets : Prop :=
  ∀ s : State,
    let reset (inputs : Inputs) (t : State) : Prop := ∃ (events : List Event) (n : Nat),
      events.Perm (.safeEnter (if inputs.safeReq then 0b0101 else 0b0001)
        :: ((List.finRange 12).filter fun l : LaneId => decide (s.lanes[l].card = .answer)).map Event.laneCall)
      ∧ t = events.foldl (fun t e => t.eventRaised e) (State.resetUnder inputs (fun l => s.lanes[l].card) n s.pending)
    (∀ f : Frame, s.trunk.closed = true → s.trunk.sending = some f → f.kind = 0x41 → f.payload = [0x14, 0] →
      ∃ t : State, reset s.inputs t ∧ exec .resetFullExecute s = .next t)
    ∧ (s.trunk.closed = false → exec .resetFullExecute s = .next s)
    ∧ (∃ t : State, reset s.inputs t ∧ exec .powerOn s = .next t)
    ∧ (∃ t : State, reset { s.inputs with rstLow := true } t ∧ exec .rstNAssert s = .next t)
    ∧ (s.inputs.rstLow = true → ∃ t : State, reset { s.inputs with rstLow := false } t ∧ exec .rstNRelease s = .next t)
    ∧ (s.inputs.rstLow = false → exec .rstNRelease s = .next s)

/-! ### Lanes, readings and taps -/

/-- SET LANES: BAD_VALUE for an entry out of range, OK for an empty list (log 16); else the last entry that names a lane sets it, and each
named lane acts on its settings; the answer is the twelve lane states. One of the named lanes, at most, leaves UP for DRAINING, the others'
effects as before: its outputs are UNKNOWN, a flagged bus that becomes live sends EVT HOT_BUS, and its host frames bounce; since no step
collects on it, no reading meets its departure, and a lane that goes from LOST to DRAINING keeps what can (log 30). A frame still on the
line when LOST goes on to DRAINING is cut short, which is the model's choice (log 25). Or the lane goes to OFF, from FAULTED or LOOP, and
acts on its settings there; an answering card calls if the lane stays in OFF, and whether it calls in passing is open (log 10). -/
def Obligations.SetLanesActs : Prop :=
  ∀ (tag : Tag) (es : List LaneSetRaw) (s : State), s.Quiet → s.Listening → (Request.setLanes es).wf = true →
    ((∃ e ∈ es, 11 < e.lane.toNat ∨ 1 < e.demand.toNat ∨ 1 < e.loopback.toNat) →
      exec (.setLanes tag es) s = .next (s.heard.answer tag [0x04, 2]))
    ∧ ∀ setting : LaneId → Option (Bool × Bool),
        (∀ e ∈ es, e.lane.toNat ≤ 11 ∧ e.demand.toNat ≤ 1 ∧ e.loopback.toNat ≤ 1) →
        (∀ l : LaneId, setting l = ((es.filter fun e => decide (e.lane.toNat = l.val)).getLast?).map fun e =>
          (e.demand == 1, e.loopback == 1)) →
        let stays (l : LaneId) : Prop := ∀ d b : Bool, setting l = some (d, b) → ¬(s.lanes[l].state = .up ∧ d = false)
          ∧ ¬(s.lanes[l].state = .faulted ∧ d = false) ∧ ¬(s.lanes[l].state = .loop ∧ b = false)
        let named (l : LaneId) : Lane :=
          match setting l with
          | some (d, b) => s.lanes[l].named d b
          | none => s.lanes[l]
        let answered (t : State) : State := t.answer tag (0x04 :: 0 :: (List.finRange 12).map fun k : LaneId => t.lanes[k].state.code)
        ((∀ l : LaneId, stays l) → exec (.setLanes tag es) s = .next (answered { s.heard with lanes := Vector.ofFn named }))
        ∧ ∀ (l : LaneId) (d b : Bool), setting l = some (d, b) → (∀ k : LaneId, k ≠ l → stays k) →
            let u := { s.heard with lanes := Vector.ofFn fun k => if k = l then s.lanes[l] else named k }
            let x : Lane := { s.lanes[l] with demand := d, loopback := b }
            let becomes (y : Lane) : State := answered { u with lanes := u.lanes.set l y }
            let y := x.offed
            (s.LeavesCleanly l → d = false → ∃ t : State, s.HotFrom (u.upLeft l { x.draining with leftStep := none }) t ∧
              exec (.setLanes tag es) s = .next (answered t))
            ∧ ((s.lanes[l].state = .faulted ∧ d = false) ∨ (s.lanes[l].state = .loop ∧ b = false) →
                let silent := exec (.setLanes tag es) s = .next (becomes y.started)
                let calls := exec (.setLanes tag es) s = .next ((becomes { y with called := true }.started).eventRaised (.laneCall l))
                (s.lanes[l].card ≠ .answer → silent)
                ∧ (s.lanes[l].card = .answer → d = false → b = false → calls)
                ∧ (s.lanes[l].card = .answer → d = true ∨ b = true → silent ∨ calls))

/-- A card's line condition changes: an answering card calls from OFF, once; a card that is not quiet takes WAKING on to ALIGNING; a lost
stream ends a good run, takes UP to LOST with EVT LANE, after EVT HOT_BUS for a flagged bus that becomes live (in the order of R145, log 7);
DRAINING times the quiet line. After a change no frame meets an earlier departure from UP (log 30). A condition that stands changes nothing.
-/
def Obligations.CardConditionsAct : Prop :=
  ∀ (l : LaneId) (c : CardCondition) (s : State), s.AtRest →
    let x : Lane := { s.lanes[l] with card := c, leftStep := none }
    let becomes (y : Lane) : State := { s with lanes := s.lanes.set l y }
    (s.lanes[l].card = c → exec (.cardConditionChange l c) s = .next s)
    ∧ (s.lanes[l].card ≠ c →
        (s.lanes[l].state = .off → exec (.cardConditionChange l c) s = .next
          (if c = .answer ∧ s.lanes[l].called = false then (becomes { x with called := true }).eventRaised (.laneCall l)
           else becomes x))
        ∧ (s.lanes[l].state = .waking → exec (.cardConditionChange l c) s = .next
            (becomes (if c = .quiet then x else { x with state := .aligning, goodRun := 0, timer := some 10000 })))
        ∧ (s.lanes[l].state = .aligning ∨ s.lanes[l].state = .lost → exec (.cardConditionChange l c) s = .next
            (becomes (if c = .stream then x else { x with goodRun := 0 })))
        ∧ (s.lanes[l].state = .up → c = .stream → exec (.cardConditionChange l c) s = .next (becomes x))
        ∧ (s.LeavesCleanly l → c ≠ .stream → ∃ t : State,
            s.HotFrom (s.upLeft l { x with state := .lost, goodRun := 0, timer := some 5000 }) t
            ∧ exec (.cardConditionChange l c) s = .next (t.eventRaised (.lane l .lost s.lanes[l].attempts)))
        ∧ (s.lanes[l].state = .draining → exec (.cardConditionChange l c) s = .next
            (becomes { x with quiet := if c = .quiet then some 2000 else none }))
        ∧ (s.lanes[l].state = .retryWait ∨ s.lanes[l].state = .faulted ∨ s.lanes[l].state = .loop →
            exec (.cardConditionChange l c) s = .next (becomes x)))

/-- The windows of a lane run out: WAKING and ALIGNING fail an attempt, the eighth with EVT LANE FAULTED; LOST goes to RETRY_WAIT with EVT
LANE, where a frame still on the line is cut short (the model's choice, log 25); RETRY_WAIT wakes the card again; DRAINING ends in OFF with
EVT LANE, and a card that answers there calls in an order that is open (log 5), where the lane stays in OFF, and where it only passes OFF
perhaps (log 10); a loopback test fails. In another state nothing happens (log 4). A window's remaining time passes for all timers (the
model's choice, log 3). -/
def Obligations.LaneWindowsExpire : Prop :=
  ∀ (l : LaneId) (d : Nat) (s : State), s.AtRest →
    let u := s.elapse d
    let x := u.lanes[l]
    let becomes (y : Lane) : State := { u with lanes := u.lanes.set l y }
    (∀ c : Instr, s.lanes[l].timer = some d →
      ((c = .wakeWindowExpire l ∧ s.lanes[l].state = .waking) ∨ (c = .alignWindowExpire l ∧ s.lanes[l].state = .aligning)) →
      exec c s = .next
        (if s.lanes[l].attempts + 1 < 8 then
          becomes { x with state := .retryWait, attempts := x.attempts + 1, timer := some 50000, sending := none }
         else (becomes { x with state := .faulted, attempts := x.attempts + 1, timer := none, sending := none }).eventRaised
           (.lane l .faulted (x.attempts + 1))))
    ∧ (s.lanes[l].timer = some d → s.lanes[l].state = .lost → exec (.lostWindowExpire l) s = .next
        ((becomes { x with state := .retryWait, attempts := 0, timer := some 50000, sending := none }).eventRaised
          (.lane l .retryWait 0)))
    ∧ (s.lanes[l].timer = some d → s.lanes[l].state = .retryWait → exec (.retryTimeExpire l) s = .next
        (becomes (x.woken x.attempts)))
    ∧ (∀ c : Instr, s.lanes[l].state = .draining →
        ((c = .drainLimitExpire l ∧ s.lanes[l].timer = some d) ∨ (c = .quietTimerReach l ∧ s.lanes[l].quiet = some d)) →
        (s.lanes[l].card ≠ .answer →
          exec c s = .next ((becomes x.offed.started).eventRaised (.lane l .off s.lanes[l].attempts)))
        ∧ (s.lanes[l].card = .answer → s.lanes[l].demand = false → s.lanes[l].loopback = false →
            ∃ (events : List Event) (n : Nat), events.Perm [.lane l .off s.lanes[l].attempts, .laneCall l]
              ∧ exec c s = .next (events.foldl (fun t e => t.eventRaised e)
                  { becomes { x.offed with called := true } with freeCount := n }))
        ∧ (s.lanes[l].card = .answer → s.lanes[l].demand = true ∨ s.lanes[l].loopback = true →
            ∃ (calls : Bool) (events : List Event) (n : Nat),
              events.Perm (.lane l .off s.lanes[l].attempts :: if calls then [.laneCall l] else [])
              ∧ exec c s = .next (events.foldl (fun t e => t.eventRaised e)
                  { becomes { x.offed with called := calls }.started with freeCount := n })))
    ∧ (s.lanes[l].timer = some d → s.lanes[l].state = .loop → exec (.loopWindowExpire l) s = .next
        (becomes { x with loopStatus := .bad, timer := none }))
    ∧ ∀ (c : Instr) (at_ : LaneState), (c, at_) ∈ [(.wakeWindowExpire l, .waking), (.alignWindowExpire l, .aligning),
          (.lostWindowExpire l, .lost), (.retryTimeExpire l, .retryWait), (.drainLimitExpire l, .draining),
          (.quietTimerReach l, .draining), (.loopWindowExpire l, LaneState.loop)] →
        s.lanes[l].state ≠ at_ → exec c s = .next s

/-- A free lane transmitter takes the oldest part frame, else the oldest host frame, else an IDLE frame on an UP lane; it sends IDLE frames
in ALIGNING, LOST and LOOP (the model's reading of when it begins, log 14), and nothing in the other states. The line condition that the part
signals follows the lane's state. -/
def Obligations.LaneSendsNext : Prop :=
  ∀ (l : LaneId) (s : State), s.AtRest →
    let x := s.lanes[l]
    let idle : Frame :=
      { dest := s.tables.instruments[l].node, source := 240, kind := 0x00, flags := 0, tag := 0, payload := [] }
    let becomes (y : Lane) : State := { s with lanes := s.lanes.set l y }
    (s.line l = match x.state with
      | .waking => .wake
      | .aligning | .up | .lost => .stream
      | .off | .retryWait | .faulted | .draining | .loop => .quiet)
    ∧ (∀ (f : Frame) (rest : List Frame), x.state = .up → x.partFrames = f :: rest →
      exec (.laneSendBegin l) s = .next (becomes { x with partFrames := rest, sending := some f }))
    ∧ (∀ (f : Frame) (rest : List Frame), x.state = .up → x.partFrames = [] → x.hostFrames = f :: rest →
        exec (.laneSendBegin l) s = .next (becomes { x with hostFrames := rest, sending := some f }))
    ∧ (x.state = .up → x.partFrames = [] → x.hostFrames = [] →
        exec (.laneSendBegin l) s = .next (becomes { x with sending := some idle }))
    ∧ (x.state = .aligning ∨ x.state = .lost ∨ x.state = .loop →
        exec (.laneSendBegin l) s = .next (becomes { x with sending := some idle }))
    ∧ (x.state = .off ∨ x.state = .waking ∨ x.state = .retryWait ∨ x.state = .faulted ∨ x.state = .draining →
        exec (.laneSendBegin l) s = .next s)

/-- Frames at a lane's receiver that are counted: four good ones in a row bring ALIGNING and LOST up with EVT LANE, and pass the loopback
test; three bad ones in a row lose UP, with EVT LANE after EVT HOT_BUS for a flagged bus that becomes live (in the order of R145, log 7). A
frame from the card in LOOP, one through the loop elsewhere (log 19), and one in another state that does not receive do nothing. A frame
received in LOST or DRAINING is discarded beside its count; but a reading that the step would have got whose collection the lane's departure
ended is stale, passes the taps and is counted so, if it arrives at the instant of the departure, which is open (log 30). -/
def Obligations.LaneFramesCounted : Prop :=
  ∀ (l : LaneId) (bytes : List Byte) (s : State), s.AtRest →
    let x := s.lanes[l]
    let good := (readFrame bytes).isSome
    let becomes (y : Lane) : State := { s with lanes := s.lanes.set l y }
    let counted (u : State) : State :=
      let y := u.lanes[l]
      if good = false then { u with lanes := u.lanes.set l { y with goodRun := 0 } }
      else if y.goodRun < 3 then { u with lanes := u.lanes.set l { y with goodRun := y.goodRun + 1 } }
      else { u with lanes := u.lanes.set l { y with goodRun := y.goodRun + 1, state := .up, timer := none, badRun := 0 } }.eventRaised
        (.lane l .up y.attempts)
    (x.state = .aligning → exec (.laneFrameReceive l false bytes) s = .next (counted s))
    ∧ (x.state = .lost ∨ x.state = .draining →
        let u := becomes { x with leftStep := none }
        let taken (v : State) : State := if x.state = .lost then counted v else v
        ((∀ f : Frame, readFrame bytes = some f → ¬s.MeetsDeparture l f) → exec (.laneFrameReceive l false bytes) s = .next (taken u))
        ∧ ∀ f : Frame, readFrame bytes = some f → s.MeetsDeparture l f →
            (∃ n : Nat, exec (.laneFrameReceive l false bytes) s = .next (taken { u with freeCount := n }))
            ∨ ∃ v : State, u.TappedBy f none v ∧ exec (.laneFrameReceive l false bytes) s = .next (taken { v with
                counters := { s.counters with staleReadings := min (s.counters.staleReadings + 1) 65535 } }))
    ∧ (x.state = .loop → exec (.laneFrameReceive l true bytes) s = .next (becomes
        (if good = false then { x with goodRun := 0 }
         else if x.goodRun < 3 ∨ x.loopStatus ≠ .testing then { x with goodRun := min (x.goodRun + 1) 4 }
         else { x with goodRun := 4, loopStatus := .good, timer := none })))
    ∧ (x.state = .up → good = false → x.badRun < 2 →
        exec (.laneFrameReceive l false bytes) s = .next (becomes { x with badRun := x.badRun + 1 }))
    ∧ (s.LeavesCleanly l → good = false → 2 ≤ x.badRun → ∃ t : State,
        s.HotFrom (s.upLeft l { x with
          badRun := x.badRun + 1, state := .lost, goodRun := 0, timer := some 5000, leftStep := none }) t
        ∧ exec (.laneFrameReceive l false bytes) s = .next (t.eventRaised (.lane l .lost x.attempts)))
    ∧ (x.state ≠ .loop → exec (.laneFrameReceive l true bytes) s = .next s)
    ∧ (x.state ∉ [.aligning, .lost, .up, .draining] → exec (.laneFrameReceive l false bytes) s = .next s)

/-- A lane leaves UP while a step collects on it: the step fails with the cause LANE, beside the effects of leaving UP, of which EVT HOT_BUS
comes before EVT LANE (in the order of R145, log 7). A reading that the step would have got can still meet the departure by a line condition
or by SET LANES (log 30). To LOST, by the card's line condition or the third bad frame in a row, EVT LANE comes before or after what the
failed step does, which is open (log 5), and the engine begins no commit; to DRAINING, by SET LANES, no event comes, and what the engine
then begins follows, behind the answer (log 8; log 5 where a hold timer is due). -/
def Obligations.CollectingLaneLeavesUp : Prop :=
  ∀ (l : LaneId) (i : Site) (c : StepContext) (next : Option Site) (s : State), s.AtRest → s.lanes[l].state = .up →
    s.runs[i].state = .running → s.runs[i].ctx = some c → c.phase = .collect → c.entry.instrument = some l →
    (∀ j : Site, s.Collects j l → j = i) →
    let x := s.lanes[l]
    let lost (command : Instr) (y : Lane) : Prop :=
      ∃ t : State, s.HotFrom (s.upLeft l { y with state := .lost, goodRun := 0, timer := some 5000 }) t
        ∧ let e : Event := .lane l .lost x.attempts
          let t' := t.eventRaised e
          (t.Judges i (c.judging t .lane) next → (t.judged i (c.judging t .lane) next).Idles → ∃ n : Nat,
            exec command s = .next { (t.judged i (c.judging t .lane) next).eventRaised e with freeCount := n }
            ∨ exec command s = .next { t'.judged i (c.judging t' .lane) next with freeCount := n })
    (∀ k : CardCondition, k ≠ .stream → k ≠ x.card → lost (.cardConditionChange l k) { x with card := k, leftStep := s.collecting l })
    ∧ (∀ bytes : List Byte, readFrame bytes = none → 2 ≤ x.badRun →
        lost (.laneFrameReceive l false bytes) { x with badRun := x.badRun + 1, leftStep := none })
    ∧ ∀ (tag : Tag) (b : Bool), s.Listening → ∃ t : State,
        s.HotFrom (s.heard.upLeft l { x with demand := false, loopback := b, leftStep := s.collecting l }.draining) t
        ∧ let u := t.answer tag (0x04 :: 0 :: (List.finRange 12).map fun k : LaneId => t.lanes[k].state.code)
          (u.Judges i (c.judging u .lane) next →
            s.Leads (.setLanes tag [{ lane := BitVec.ofNat 8 l, demand := 0, loopback := if b then 1 else 0 }])
              (u.judged i (c.judging u .lane) next))

/-- A good frame on an UP lane ends a bad run. Instrument responses go to the host; a status frame of the lane's instrument sets its
outputs, with EVT HOT_BUS for a flagged bus that becomes live, and a commit that is no longer held begins (log 5 where its hold timer is
due); other kinds than these and readings are discarded. -/
def Obligations.LaneTrafficRouted : Prop :=
  ∀ (l : LaneId) (bytes : List Byte) (f : Frame) (s : State), s.AtRest → s.lanes[l].state = .up → readFrame bytes = some f →
    let u : State := { s with lanes := s.lanes.set l { s.lanes[l] with badRun := 0 } }
    let command : Instr := .laneFrameReceive l false bytes
    (f.kind ∉ [0x11, 0x20, 0x21] → exec command s = .next u)
    ∧ (f.kind = 0x11 → exec command s = .next (u.forwarded l f))
    ∧ (f.kind = 0x21 → (f.source ≠ s.tables.instruments[l].node ∨ f.source = 0 ∨ readReports f.payload = none) →
        exec command s = .next u)
    ∧ ∀ reports : List (Fin 8 × Output), f.kind = 0x21 → f.source = s.tables.instruments[l].node → f.source ≠ 0 →
        readReports f.payload = some reports →
        ∃ t w : State, exec command s = .next t ∧ w.Begins t ∧ s.HotFrom { u with
          tables := { s.tables with
            channels := Vector.ofFn fun c : ChannelId =>
              if laneOfChannel c = l then
                { s.tables.channels[c] with
                  output :=
                    if s.tables.instruments[l].channels ≤ c.val % 8 then .off
                    else match (reports.filter fun r => decide (r.1.val = c.val % 8)).getLast? with
                      | some r => r.2
                      | none => s.tables.channels[c].output }
              else s.tables.channels[c] } } w

/-- A reading on an UP lane passes the taps first, the order of whose events is open (log 5). Without the part's tag bit it goes to the
host. With it, one that is not of the current step of the site its tag names is stale: the instrument is another's or none's, the site does
not hold it, does not run or does not collect, the sequence or the channel is another, or the reading is malformed. -/
def Obligations.ReadingsRouted : Prop :=
  ∀ (l : LaneId) (bytes : List Byte) (f : Frame) (s : State), s.AtRest → s.lanes[l].state = .up → readFrame bytes = some f →
    f.kind = 0x20 →
    let site : Site := ⟨f.tag.toNat / 4096 % 8, Nat.mod_lt _ (by decide)⟩
    let command : Instr := .laneFrameReceive l false bytes
    let passes (v : State) : Prop := State.TappedBy { s with lanes := s.lanes.set l { s.lanes[l] with badRun := 0 } } f none v
    (f.tag.getLsbD 15 = false → ∃ v : State, passes v ∧ exec command s = .next (v.forwarded l f))
    ∧ (f.tag.getLsbD 15 = true →
        f.source ≠ s.tables.instruments[l].node ∨ f.source = 0 ∨ s.claims.records[l].holder ≠ some site
          ∨ s.runs[site].state ≠ .running ∨ f.tag.toNat % 4096 ≠ s.runs[site].seq ∨ readReading f.payload = none
          ∨ (∀ c : StepContext, s.runs[site].ctx = some c → c.phase ≠ .collect
            ∨ ∀ r : Fin 8 × List Sample, readReading f.payload = some r → r.1 ≠ c.entry.channel) →
        ∃ v : State, passes v ∧ exec command s = .next { v with
          counters := { s.counters with staleReadings := min (s.counters.staleReadings + 1) 65535 } })

/-- SET TAPS writes the settings of taps, the last mention of each (log 26), and clears what they captured; a count of 0 (log 16) or an entry
out of range is BAD_VALUE. TAKE TAPS answers the four records and takes what is fresh; the step of a record without attribution is open (log
13). -/
def Obligations.TapsSetAndTaken : Prop :=
  ∀ (tag : Tag) (s : State), s.Quiet → s.Listening →
    (∀ es : List TapRaw, (Request.setTaps es).wf = true → exec (.setTaps tag es) s = .next
      (if es ≠ [] ∧ ∀ e ∈ es, (TapRaw.read e).isSome then
        { s.heard with taps := Vector.ofFn fun t => lastEntry TapRaw.read es t s.taps[t] }.answer tag [0x0E, 0]
       else s.heard.answer tag [0x0E, 2]))
    ∧ (∀ (e : TapRaw) (i : TapId) (v : Tap), TapRaw.read e = some (i, v) →
        v.fresh = false ∧ v.last = none ∧ v.attribution = none ∧ v.overrun = 0)
    ∧ ∃ free : List Byte, free.length = 2 ∧
        let flag (b : Bool) : Byte := if b then 1 else 0
        let record (k : TapId) : List Byte :=
          let t := s.taps[k]
          [BitVec.ofNat 8 k, flag t.enabled, t.node, BitVec.ofNat 8 t.channel, flag t.notify, flag t.fresh]
            ++ (match t.last with
              | some x => [1, flag x.overrange] ++ bytes3 (BitVec.ofInt 24 x.raw)
              | none => [0, 0, 0, 0, 0])
            ++ (match t.attribution with
              | some (i, n) => BitVec.ofNat 8 i :: bytes2 (BitVec.ofNat 16 n)
              | none => 0xFF :: free)
            ++ [BitVec.ofNat 8 t.overrun]
        exec (.takeTaps tag) s = .next ({ s.heard with
          taps := Vector.ofFn fun t : TapId => { s.taps[t] with fresh := false, overrun := 0 } }.answer tag
          (0x0F :: 0 :: ((List.finRange 4).map record).flatten))

/-! ### The trunk -/

/-- A frame on the trunk: a bad one, and one that is not the host's, is counted; an IDLE frame does no more than restart the silence timer;
a frame finds its place in the input buffer, or is discarded and counted. A frame stays there behind others, after the answer to RESET FULL,
and, where it is a request, while a response waits; else one of no use is counted as bad. That a request's command is the arrival of its
frame is the model's reading (log 2). -/
def Obligations.TrunkFramesJudged : Prop :=
  ∀ (bytes : List Byte) (s : State), s.AtRest →
    let bad : State := { s with counters := { s.counters with badFrames := min (s.counters.badFrames + 1) 65535 } }
    (readFrame bytes = none → exec (.trunkFrameReceive bytes) s = .next bad)
    ∧ ∀ f : Frame, readFrame bytes = some f →
        (f.source ≠ 250 → exec (.trunkFrameReceive bytes) s = .next bad)
        ∧ (f.source = 250 → f.kind = 0 → exec (.trunkFrameReceive bytes) s = .next s.heard)
        ∧ (f.source = 250 → f.kind ≠ 0 →
            (s.trunk.input ≠ [] ∨ s.trunk.closed = true ∨ (f.dest = 240 ∧ f.kind = 0x40 ∧ s.trunk.responses ≠ [])) →
            exec (.trunkFrameReceive bytes) s = .next
              (if s.trunk.input.length < 8 then
                { s.heard with trunk := { s.trunk with input := s.trunk.input ++ [f] } }
               else { s.heard with counters := { s.counters with inputDiscards := min (s.counters.inputDiscards + 1) 65535 } }))
        ∧ (f.source = 250 → f.kind ≠ 0 → s.trunk.input = [] → s.trunk.closed = false → ¬(f.dest = 240 ∧ f.kind = 0x40) →
            (f.kind ≠ 0x10 ∨ (f.dest ≠ 255 ∧ (f.dest = 0 ∨ 239 < f.dest.toNat))) →
            exec (.trunkFrameReceive bytes) s = .next { s.heard with counters := bad.counters })
        ∧ ∀ (c : Instr) (tag : Tag) (r : Request), c.request = some (tag, r) → f = hostFrame tag r.payload →
            exec c s = exec (.trunkFrameReceive bytes) s

/-- A CMD frame of the host goes to the transmit queue of its instrument's lane, or bounces by the first of the reasons that applies; a
broadcast is copied to every UP lane with an instrument, no holder and room, without any bounce. -/
def Obligations.CommandsForwarded : Prop :=
  ∀ (bytes : List Byte) (f : Frame) (s : State), s.AtRest → s.trunk.input = [] → s.trunk.closed = false →
    readFrame bytes = some f → f.source = 250 →
    f.kind = 0x10 →
    let u := s.heard
    let command : Instr := .trunkFrameReceive bytes
    (f.dest ≠ 0 → f.dest.toNat ≤ 239 →
      ((∀ l : LaneId, s.tables.instruments[l].node ≠ f.dest) → exec command s = .next (u.bounced .noRoute f))
      ∧ ∀ l : LaneId, (∀ k : LaneId, s.tables.instruments[k].node = f.dest ↔ k = l) →
          let x := s.lanes[l]
          exec command s = .next
            (if f.tag.getLsbD 15 then u.bounced .badTag f
             else if x.state ≠ .up then u.bounced .laneDown f
             else if s.claims.records[l].holder ≠ none ∧ f.flags.getLsbD 0 = false then u.bounced .held f
             else if 8 ≤ x.queued then u.bounced .laneFull f
             else { u with lanes := s.lanes.set l { x with hostFrames := x.hostFrames ++ [f] } }))
    ∧ (f.dest = 255 → exec command s = .next { u with
        lanes := Vector.ofFn fun l : LaneId =>
          if f.tag.getLsbD 15 = false ∧ s.tables.instruments[l].node ≠ 0 ∧ s.lanes[l].state = .up
              ∧ s.claims.records[l].holder = none ∧ s.lanes[l].queued < 8 then
            { s.lanes[l] with hostFrames := s.lanes[l].hostFrames ++ [f] }
          else s.lanes[l] })

/-- The free transmitter takes one frame: the oldest response, else event, else bounce, else the head of the next up buffer in rotation,
else the RES frame of the next site in rotation that is due; it stays free where no store has one (what the command means is the model's
reading, log 14). While it sends the RESET FULL response the command does nothing, since the end of that is the full reset (log 14). Here
nothing waits for what the frame frees: no request for the last response, no step of the site for the places of its records. -/
def Obligations.TransmitterChooses : Prop :=
  ∀ s : State, s.AtRest →
    let part (kind : Byte) (tag : Tag) (payload : List Byte) : Frame :=
      { dest := 250, source := 240, kind := kind, flags := 0, tag := tag, payload := payload }
    (s.sendingReset = true → exec .transmitChoice s = .next s)
    ∧ (s.sendingReset = false →
      (∀ f rest, s.trunk.responses = f :: rest → (s.trunk.input = [] ∨ s.trunk.closed = true ∨ rest ≠ []) →
        exec .transmitChoice s = .next (State.sent { s with trunk := { s.trunk with responses := rest } } f))
      ∧ (s.trunk.responses = [] →
        (∀ n e rest, s.trunk.events = (n, e) :: rest → exec .transmitChoice s = .next
          (State.sent { s with trunk := { s.trunk with events := rest } } (part 0x43 (BitVec.ofNat 16 (0x8000 + n)) e.payload)))
        ∧ (s.trunk.events = [] →
          (∀ b rest, s.trunk.bounces = b :: rest → exec .transmitChoice s = .next
            (State.sent { s with trunk := { s.trunk with bounces := rest } } (part 0x44 b.tag [b.reason.code, b.node])))
          ∧ (s.trunk.bounces = [] →
            (∀ (l : LaneId) f rest, s.lanes[l].upBuffer = f :: rest →
              (∀ k : LaneId, (k.val + 11 - s.trunk.lastLane) % 12 < (l.val + 11 - s.trunk.lastLane) % 12 →
                s.lanes[k].upBuffer = []) →
              exec .transmitChoice s = .next (State.sent { s with
                lanes := s.lanes.set l { s.lanes[l] with upBuffer := rest }
                trunk := { s.trunk with lastLane := l } } f))
            ∧ ((∀ l : LaneId, s.lanes[l].upBuffer = []) → (∀ i : Site, ¬s.Due i) →
                exec .transmitChoice s = .next { s with trunk := { s.trunk with sending := none } }))))
      ∧ ∀ (i : Site) (candidate : Nat), s.ResNext i → s.Candidate i candidate →
          (∀ c : StepContext, s.runs[i].ctx = some c → c.phase ≠ .judge) →
          exec .transmitChoice s = .next (s.resSent i (min candidate (min s.results[i].credit 16))))

/-- The transmitter, which is not sending the RESET FULL response, frees others: a step that waits in JUDGE places further records in the
places that the RES frame of its site frees, in the same event, and with its last record is released, and what the engine then begins
follows (log 5 where a hold timer is due); and when the last response is taken, the request at the head of the input buffer is served in the
same event, as if it arrived now (log 14 on the command, log 24 on the step, log 2 on the request). -/
def Obligations.TransmitterFreesOthers : Prop :=
  ∀ s : State, s.AtRest → s.sendingReset = false →
    (∀ (i : Site) (candidate : Nat) (c : StepContext) (next : Option Site), s.ResNext i → s.Candidate i candidate →
      s.runs[i].ctx = some c → c.phase = .judge →
      let u := s.resSent i (min candidate (min s.results[i].credit 16))
      u.Judges i c next → s.Leads .transmitChoice (u.judged i c next))
    ∧ ∀ (f : Frame) (tag : Tag) (payload : List Byte), s.trunk.responses = [f] → s.trunk.input = [hostFrame tag payload] →
        s.trunk.closed = false → payload.length ≤ 1024 →
        (s.protection.timer = none ∨ s.protection.timer = some (s.protection.setting * 100000)) →
        exec .transmitChoice s = exec (.trunkFrameReceive (hostFrame tag payload).bytes)
          (State.sent { s with trunk := { s.trunk with responses := [], input := [] } } f)
end

