-- ==== Sys2Proof/Laws/Chain.lean ====
section
/-! SUPPORT. What the signals to the relay driver chain leave in it (spec R2). -/

namespace Sys2Proof.Machine

/-- After the values of the positions below n, the highest first, those positions hold them, and what stood in the chain has moved up. -/
theorem shifts_getLsbD (x : Crosspoints) (n : Nat) (m : Matrix) :
    (((List.range n).reverse.map fun k => ChainSignal.shift (x.getLsbD k)).foldl Matrix.signal m).image = m.image
    ∧ (((List.range n).reverse.map fun k => ChainSignal.shift (x.getLsbD k)).foldl Matrix.signal m).drivers = m.drivers
    ∧ ∀ j, j < 3072 → (((List.range n).reverse.map fun k => ChainSignal.shift (x.getLsbD k)).foldl Matrix.signal m).chain.getLsbD j
      = if j < n then x.getLsbD j else m.chain.getLsbD (j - n) := by
  induction n generalizing m with
  | zero => exact ⟨rfl, rfl, fun j _ => by simp⟩
  | succ n ih =>
    simp only [List.range_succ, List.reverse_append, List.reverse_cons, List.reverse_nil, List.nil_append, List.cons_append,
      List.map_cons, List.foldl_cons]
    obtain ⟨h1, h2, h3⟩ := ih (m.signal (.shift (x.getLsbD n)))
    refine ⟨h1, h2, fun j hj => ?_⟩
    rw [h3 j hj]
    by_cases hn : j < n
    · rw [if_pos hn, if_pos (by omega)]
    · rw [if_neg hn]
      by_cases he : j = n
      · subst he
        simp only [Matrix.signal, Nat.sub_self, Nat.lt_succ_self, if_true]
        cases x.getLsbD j <;> simp
      · rw [if_neg (by omega)]
        have h0 : j - n = (j - (n + 1)) + 1 := by omega
        have h1 : j - (n + 1) + 1 < 3072 := by omega
        simp only [Matrix.signal, h0]
        cases x.getLsbD n <;> (simp [h1]; rfl)

/-- The signals of a pattern leave it in the chain and on the drivers, whatever the chain held. -/
@[simp] theorem Matrix.load_eq (x : Crosspoints) (m : Matrix) : m.load x = { image := m.image, chain := x, drivers := x } := by
  obtain ⟨h1, h2, h3⟩ := shifts_getLsbD x 3072 m
  have h4 : (((List.range 3072).reverse.map fun k => ChainSignal.shift (x.getLsbD k)).foldl Matrix.signal m).chain = x :=
    BitVec.eq_of_getLsbD_eq fun j hj => by rw [h3 j hj, if_pos hj]
  simp only [Matrix.load, chainSignals, List.foldl_append, List.foldl_cons, List.foldl_nil, Matrix.signal, h1, h4]

end Sys2Proof.Machine
end

