-- ==== Sys2Proof/Laws/State.lean ====
section
/-! SUPPORT. What each update of one part of the state leaves in every field. -/

namespace Sys2Proof.Machine

@[simp] theorem State.onInputs_inputs (f : Inputs → Inputs) (s : State) : (s.onInputs f).inputs = f s.inputs := rfl
@[simp] theorem State.onInputs_tables (f : Inputs → Inputs) (s : State) : (s.onInputs f).tables = s.tables := rfl
@[simp] theorem State.onInputs_matrix (f : Inputs → Inputs) (s : State) : (s.onInputs f).matrix = s.matrix := rfl
@[simp] theorem State.onInputs_engine (f : Inputs → Inputs) (s : State) : (s.onInputs f).engine = s.engine := rfl
@[simp] theorem State.onInputs_claims (f : Inputs → Inputs) (s : State) : (s.onInputs f).claims = s.claims := rfl
@[simp] theorem State.onInputs_runs (f : Inputs → Inputs) (s : State) : (s.onInputs f).runs = s.runs := rfl
@[simp] theorem State.onInputs_results (f : Inputs → Inputs) (s : State) : (s.onInputs f).results = s.results := rfl
@[simp] theorem State.onInputs_lanes (f : Inputs → Inputs) (s : State) : (s.onInputs f).lanes = s.lanes := rfl
@[simp] theorem State.onInputs_taps (f : Inputs → Inputs) (s : State) : (s.onInputs f).taps = s.taps := rfl
@[simp] theorem State.onInputs_counters (f : Inputs → Inputs) (s : State) : (s.onInputs f).counters = s.counters := rfl
@[simp] theorem State.onInputs_trunk (f : Inputs → Inputs) (s : State) : (s.onInputs f).trunk = s.trunk := rfl
@[simp] theorem State.onInputs_protection (f : Inputs → Inputs) (s : State) : (s.onInputs f).protection = s.protection := rfl
@[simp] theorem State.onInputs_freeCount (f : Inputs → Inputs) (s : State) : (s.onInputs f).freeCount = s.freeCount := rfl
@[simp] theorem State.onInputs_due (f : Inputs → Inputs) (s : State) : (s.onInputs f).due = s.due := rfl
@[simp] theorem State.onInputs_pending (f : Inputs → Inputs) (s : State) : (s.onInputs f).pending = s.pending := rfl

@[simp] theorem State.onTables_inputs (f : Tables → Tables) (s : State) : (s.onTables f).inputs = s.inputs := rfl
@[simp] theorem State.onTables_tables (f : Tables → Tables) (s : State) : (s.onTables f).tables = f s.tables := rfl
@[simp] theorem State.onTables_matrix (f : Tables → Tables) (s : State) : (s.onTables f).matrix = s.matrix := rfl
@[simp] theorem State.onTables_engine (f : Tables → Tables) (s : State) : (s.onTables f).engine = s.engine := rfl
@[simp] theorem State.onTables_claims (f : Tables → Tables) (s : State) : (s.onTables f).claims = s.claims := rfl
@[simp] theorem State.onTables_runs (f : Tables → Tables) (s : State) : (s.onTables f).runs = s.runs := rfl
@[simp] theorem State.onTables_results (f : Tables → Tables) (s : State) : (s.onTables f).results = s.results := rfl
@[simp] theorem State.onTables_lanes (f : Tables → Tables) (s : State) : (s.onTables f).lanes = s.lanes := rfl
@[simp] theorem State.onTables_taps (f : Tables → Tables) (s : State) : (s.onTables f).taps = s.taps := rfl
@[simp] theorem State.onTables_counters (f : Tables → Tables) (s : State) : (s.onTables f).counters = s.counters := rfl
@[simp] theorem State.onTables_trunk (f : Tables → Tables) (s : State) : (s.onTables f).trunk = s.trunk := rfl
@[simp] theorem State.onTables_protection (f : Tables → Tables) (s : State) : (s.onTables f).protection = s.protection := rfl
@[simp] theorem State.onTables_freeCount (f : Tables → Tables) (s : State) : (s.onTables f).freeCount = s.freeCount := rfl
@[simp] theorem State.onTables_due (f : Tables → Tables) (s : State) : (s.onTables f).due = s.due := rfl
@[simp] theorem State.onTables_pending (f : Tables → Tables) (s : State) : (s.onTables f).pending = s.pending := rfl

@[simp] theorem State.onMatrix_inputs (f : Matrix → Matrix) (s : State) : (s.onMatrix f).inputs = s.inputs := rfl
@[simp] theorem State.onMatrix_tables (f : Matrix → Matrix) (s : State) : (s.onMatrix f).tables = s.tables := rfl
@[simp] theorem State.onMatrix_matrix (f : Matrix → Matrix) (s : State) : (s.onMatrix f).matrix = f s.matrix := rfl
@[simp] theorem State.onMatrix_engine (f : Matrix → Matrix) (s : State) : (s.onMatrix f).engine = s.engine := rfl
@[simp] theorem State.onMatrix_claims (f : Matrix → Matrix) (s : State) : (s.onMatrix f).claims = s.claims := rfl
@[simp] theorem State.onMatrix_runs (f : Matrix → Matrix) (s : State) : (s.onMatrix f).runs = s.runs := rfl
@[simp] theorem State.onMatrix_results (f : Matrix → Matrix) (s : State) : (s.onMatrix f).results = s.results := rfl
@[simp] theorem State.onMatrix_lanes (f : Matrix → Matrix) (s : State) : (s.onMatrix f).lanes = s.lanes := rfl
@[simp] theorem State.onMatrix_taps (f : Matrix → Matrix) (s : State) : (s.onMatrix f).taps = s.taps := rfl
@[simp] theorem State.onMatrix_counters (f : Matrix → Matrix) (s : State) : (s.onMatrix f).counters = s.counters := rfl
@[simp] theorem State.onMatrix_trunk (f : Matrix → Matrix) (s : State) : (s.onMatrix f).trunk = s.trunk := rfl
@[simp] theorem State.onMatrix_protection (f : Matrix → Matrix) (s : State) : (s.onMatrix f).protection = s.protection := rfl
@[simp] theorem State.onMatrix_freeCount (f : Matrix → Matrix) (s : State) : (s.onMatrix f).freeCount = s.freeCount := rfl
@[simp] theorem State.onMatrix_due (f : Matrix → Matrix) (s : State) : (s.onMatrix f).due = s.due := rfl
@[simp] theorem State.onMatrix_pending (f : Matrix → Matrix) (s : State) : (s.onMatrix f).pending = s.pending := rfl

@[simp] theorem State.onEngine_inputs (f : Engine → Engine) (s : State) : (s.onEngine f).inputs = s.inputs := rfl
@[simp] theorem State.onEngine_tables (f : Engine → Engine) (s : State) : (s.onEngine f).tables = s.tables := rfl
@[simp] theorem State.onEngine_matrix (f : Engine → Engine) (s : State) : (s.onEngine f).matrix = s.matrix := rfl
@[simp] theorem State.onEngine_engine (f : Engine → Engine) (s : State) : (s.onEngine f).engine = f s.engine := rfl
@[simp] theorem State.onEngine_claims (f : Engine → Engine) (s : State) : (s.onEngine f).claims = s.claims := rfl
@[simp] theorem State.onEngine_runs (f : Engine → Engine) (s : State) : (s.onEngine f).runs = s.runs := rfl
@[simp] theorem State.onEngine_results (f : Engine → Engine) (s : State) : (s.onEngine f).results = s.results := rfl
@[simp] theorem State.onEngine_lanes (f : Engine → Engine) (s : State) : (s.onEngine f).lanes = s.lanes := rfl
@[simp] theorem State.onEngine_taps (f : Engine → Engine) (s : State) : (s.onEngine f).taps = s.taps := rfl
@[simp] theorem State.onEngine_counters (f : Engine → Engine) (s : State) : (s.onEngine f).counters = s.counters := rfl
@[simp] theorem State.onEngine_trunk (f : Engine → Engine) (s : State) : (s.onEngine f).trunk = s.trunk := rfl
@[simp] theorem State.onEngine_protection (f : Engine → Engine) (s : State) : (s.onEngine f).protection = s.protection := rfl
@[simp] theorem State.onEngine_freeCount (f : Engine → Engine) (s : State) : (s.onEngine f).freeCount = s.freeCount := rfl
@[simp] theorem State.onEngine_due (f : Engine → Engine) (s : State) : (s.onEngine f).due = s.due := rfl
@[simp] theorem State.onEngine_pending (f : Engine → Engine) (s : State) : (s.onEngine f).pending = s.pending := rfl

@[simp] theorem State.onClaims_inputs (f : Claims → Claims) (s : State) : (s.onClaims f).inputs = s.inputs := rfl
@[simp] theorem State.onClaims_tables (f : Claims → Claims) (s : State) : (s.onClaims f).tables = s.tables := rfl
@[simp] theorem State.onClaims_matrix (f : Claims → Claims) (s : State) : (s.onClaims f).matrix = s.matrix := rfl
@[simp] theorem State.onClaims_engine (f : Claims → Claims) (s : State) : (s.onClaims f).engine = s.engine := rfl
@[simp] theorem State.onClaims_claims (f : Claims → Claims) (s : State) : (s.onClaims f).claims = f s.claims := rfl
@[simp] theorem State.onClaims_runs (f : Claims → Claims) (s : State) : (s.onClaims f).runs = s.runs := rfl
@[simp] theorem State.onClaims_results (f : Claims → Claims) (s : State) : (s.onClaims f).results = s.results := rfl
@[simp] theorem State.onClaims_lanes (f : Claims → Claims) (s : State) : (s.onClaims f).lanes = s.lanes := rfl
@[simp] theorem State.onClaims_taps (f : Claims → Claims) (s : State) : (s.onClaims f).taps = s.taps := rfl
@[simp] theorem State.onClaims_counters (f : Claims → Claims) (s : State) : (s.onClaims f).counters = s.counters := rfl
@[simp] theorem State.onClaims_trunk (f : Claims → Claims) (s : State) : (s.onClaims f).trunk = s.trunk := rfl
@[simp] theorem State.onClaims_protection (f : Claims → Claims) (s : State) : (s.onClaims f).protection = s.protection := rfl
@[simp] theorem State.onClaims_freeCount (f : Claims → Claims) (s : State) : (s.onClaims f).freeCount = s.freeCount := rfl
@[simp] theorem State.onClaims_due (f : Claims → Claims) (s : State) : (s.onClaims f).due = s.due := rfl
@[simp] theorem State.onClaims_pending (f : Claims → Claims) (s : State) : (s.onClaims f).pending = s.pending := rfl

@[simp] theorem State.onCounters_inputs (f : Counters → Counters) (s : State) : (s.onCounters f).inputs = s.inputs := rfl
@[simp] theorem State.onCounters_tables (f : Counters → Counters) (s : State) : (s.onCounters f).tables = s.tables := rfl
@[simp] theorem State.onCounters_matrix (f : Counters → Counters) (s : State) : (s.onCounters f).matrix = s.matrix := rfl
@[simp] theorem State.onCounters_engine (f : Counters → Counters) (s : State) : (s.onCounters f).engine = s.engine := rfl
@[simp] theorem State.onCounters_claims (f : Counters → Counters) (s : State) : (s.onCounters f).claims = s.claims := rfl
@[simp] theorem State.onCounters_runs (f : Counters → Counters) (s : State) : (s.onCounters f).runs = s.runs := rfl
@[simp] theorem State.onCounters_results (f : Counters → Counters) (s : State) : (s.onCounters f).results = s.results := rfl
@[simp] theorem State.onCounters_lanes (f : Counters → Counters) (s : State) : (s.onCounters f).lanes = s.lanes := rfl
@[simp] theorem State.onCounters_taps (f : Counters → Counters) (s : State) : (s.onCounters f).taps = s.taps := rfl
@[simp] theorem State.onCounters_counters (f : Counters → Counters) (s : State) : (s.onCounters f).counters = f s.counters := rfl
@[simp] theorem State.onCounters_trunk (f : Counters → Counters) (s : State) : (s.onCounters f).trunk = s.trunk := rfl
@[simp] theorem State.onCounters_protection (f : Counters → Counters) (s : State) : (s.onCounters f).protection = s.protection := rfl
@[simp] theorem State.onCounters_freeCount (f : Counters → Counters) (s : State) : (s.onCounters f).freeCount = s.freeCount := rfl
@[simp] theorem State.onCounters_due (f : Counters → Counters) (s : State) : (s.onCounters f).due = s.due := rfl
@[simp] theorem State.onCounters_pending (f : Counters → Counters) (s : State) : (s.onCounters f).pending = s.pending := rfl

@[simp] theorem State.onTrunk_inputs (f : Trunk → Trunk) (s : State) : (s.onTrunk f).inputs = s.inputs := rfl
@[simp] theorem State.onTrunk_tables (f : Trunk → Trunk) (s : State) : (s.onTrunk f).tables = s.tables := rfl
@[simp] theorem State.onTrunk_matrix (f : Trunk → Trunk) (s : State) : (s.onTrunk f).matrix = s.matrix := rfl
@[simp] theorem State.onTrunk_engine (f : Trunk → Trunk) (s : State) : (s.onTrunk f).engine = s.engine := rfl
@[simp] theorem State.onTrunk_claims (f : Trunk → Trunk) (s : State) : (s.onTrunk f).claims = s.claims := rfl
@[simp] theorem State.onTrunk_runs (f : Trunk → Trunk) (s : State) : (s.onTrunk f).runs = s.runs := rfl
@[simp] theorem State.onTrunk_results (f : Trunk → Trunk) (s : State) : (s.onTrunk f).results = s.results := rfl
@[simp] theorem State.onTrunk_lanes (f : Trunk → Trunk) (s : State) : (s.onTrunk f).lanes = s.lanes := rfl
@[simp] theorem State.onTrunk_taps (f : Trunk → Trunk) (s : State) : (s.onTrunk f).taps = s.taps := rfl
@[simp] theorem State.onTrunk_counters (f : Trunk → Trunk) (s : State) : (s.onTrunk f).counters = s.counters := rfl
@[simp] theorem State.onTrunk_trunk (f : Trunk → Trunk) (s : State) : (s.onTrunk f).trunk = f s.trunk := rfl
@[simp] theorem State.onTrunk_protection (f : Trunk → Trunk) (s : State) : (s.onTrunk f).protection = s.protection := rfl
@[simp] theorem State.onTrunk_freeCount (f : Trunk → Trunk) (s : State) : (s.onTrunk f).freeCount = s.freeCount := rfl
@[simp] theorem State.onTrunk_due (f : Trunk → Trunk) (s : State) : (s.onTrunk f).due = s.due := rfl
@[simp] theorem State.onTrunk_pending (f : Trunk → Trunk) (s : State) : (s.onTrunk f).pending = s.pending := rfl

@[simp] theorem State.onProtection_inputs (f : SafeRecord → SafeRecord) (s : State) : (s.onProtection f).inputs = s.inputs := rfl
@[simp] theorem State.onProtection_tables (f : SafeRecord → SafeRecord) (s : State) : (s.onProtection f).tables = s.tables := rfl
@[simp] theorem State.onProtection_matrix (f : SafeRecord → SafeRecord) (s : State) : (s.onProtection f).matrix = s.matrix := rfl
@[simp] theorem State.onProtection_engine (f : SafeRecord → SafeRecord) (s : State) : (s.onProtection f).engine = s.engine := rfl
@[simp] theorem State.onProtection_claims (f : SafeRecord → SafeRecord) (s : State) : (s.onProtection f).claims = s.claims := rfl
@[simp] theorem State.onProtection_runs (f : SafeRecord → SafeRecord) (s : State) : (s.onProtection f).runs = s.runs := rfl
@[simp] theorem State.onProtection_results (f : SafeRecord → SafeRecord) (s : State) : (s.onProtection f).results = s.results := rfl
@[simp] theorem State.onProtection_lanes (f : SafeRecord → SafeRecord) (s : State) : (s.onProtection f).lanes = s.lanes := rfl
@[simp] theorem State.onProtection_taps (f : SafeRecord → SafeRecord) (s : State) : (s.onProtection f).taps = s.taps := rfl
@[simp] theorem State.onProtection_counters (f : SafeRecord → SafeRecord) (s : State) : (s.onProtection f).counters = s.counters := rfl
@[simp] theorem State.onProtection_trunk (f : SafeRecord → SafeRecord) (s : State) : (s.onProtection f).trunk = s.trunk := rfl
@[simp] theorem State.onProtection_protection (f : SafeRecord → SafeRecord) (s : State) : (s.onProtection f).protection = f s.protection := rfl
@[simp] theorem State.onProtection_freeCount (f : SafeRecord → SafeRecord) (s : State) : (s.onProtection f).freeCount = s.freeCount := rfl
@[simp] theorem State.onProtection_due (f : SafeRecord → SafeRecord) (s : State) : (s.onProtection f).due = s.due := rfl
@[simp] theorem State.onProtection_pending (f : SafeRecord → SafeRecord) (s : State) : (s.onProtection f).pending = s.pending := rfl

@[simp] theorem State.onRun_inputs (i : Site) (f : Run → Run) (s : State) : (s.onRun i f).inputs = s.inputs := rfl
@[simp] theorem State.onRun_tables (i : Site) (f : Run → Run) (s : State) : (s.onRun i f).tables = s.tables := rfl
@[simp] theorem State.onRun_matrix (i : Site) (f : Run → Run) (s : State) : (s.onRun i f).matrix = s.matrix := rfl
@[simp] theorem State.onRun_engine (i : Site) (f : Run → Run) (s : State) : (s.onRun i f).engine = s.engine := rfl
@[simp] theorem State.onRun_claims (i : Site) (f : Run → Run) (s : State) : (s.onRun i f).claims = s.claims := rfl
@[simp] theorem State.onRun_runs (i : Site) (f : Run → Run) (s : State) : (s.onRun i f).runs = s.runs.set i (f s.runs[i]) := rfl
@[simp] theorem State.onRun_results (i : Site) (f : Run → Run) (s : State) : (s.onRun i f).results = s.results := rfl
@[simp] theorem State.onRun_lanes (i : Site) (f : Run → Run) (s : State) : (s.onRun i f).lanes = s.lanes := rfl
@[simp] theorem State.onRun_taps (i : Site) (f : Run → Run) (s : State) : (s.onRun i f).taps = s.taps := rfl
@[simp] theorem State.onRun_counters (i : Site) (f : Run → Run) (s : State) : (s.onRun i f).counters = s.counters := rfl
@[simp] theorem State.onRun_trunk (i : Site) (f : Run → Run) (s : State) : (s.onRun i f).trunk = s.trunk := rfl
@[simp] theorem State.onRun_protection (i : Site) (f : Run → Run) (s : State) : (s.onRun i f).protection = s.protection := rfl
@[simp] theorem State.onRun_freeCount (i : Site) (f : Run → Run) (s : State) : (s.onRun i f).freeCount = s.freeCount := rfl
@[simp] theorem State.onRun_due (i : Site) (f : Run → Run) (s : State) : (s.onRun i f).due = s.due := rfl
@[simp] theorem State.onRun_pending (i : Site) (f : Run → Run) (s : State) : (s.onRun i f).pending = s.pending := rfl

@[simp] theorem State.onResult_inputs (i : Site) (f : ResultQueue → ResultQueue) (s : State) : (s.onResult i f).inputs = s.inputs := rfl
@[simp] theorem State.onResult_tables (i : Site) (f : ResultQueue → ResultQueue) (s : State) : (s.onResult i f).tables = s.tables := rfl
@[simp] theorem State.onResult_matrix (i : Site) (f : ResultQueue → ResultQueue) (s : State) : (s.onResult i f).matrix = s.matrix := rfl
@[simp] theorem State.onResult_engine (i : Site) (f : ResultQueue → ResultQueue) (s : State) : (s.onResult i f).engine = s.engine := rfl
@[simp] theorem State.onResult_claims (i : Site) (f : ResultQueue → ResultQueue) (s : State) : (s.onResult i f).claims = s.claims := rfl
@[simp] theorem State.onResult_runs (i : Site) (f : ResultQueue → ResultQueue) (s : State) : (s.onResult i f).runs = s.runs := rfl
@[simp] theorem State.onResult_results (i : Site) (f : ResultQueue → ResultQueue) (s : State) : (s.onResult i f).results = s.results.set i (f s.results[i]) := rfl
@[simp] theorem State.onResult_lanes (i : Site) (f : ResultQueue → ResultQueue) (s : State) : (s.onResult i f).lanes = s.lanes := rfl
@[simp] theorem State.onResult_taps (i : Site) (f : ResultQueue → ResultQueue) (s : State) : (s.onResult i f).taps = s.taps := rfl
@[simp] theorem State.onResult_counters (i : Site) (f : ResultQueue → ResultQueue) (s : State) : (s.onResult i f).counters = s.counters := rfl
@[simp] theorem State.onResult_trunk (i : Site) (f : ResultQueue → ResultQueue) (s : State) : (s.onResult i f).trunk = s.trunk := rfl
@[simp] theorem State.onResult_protection (i : Site) (f : ResultQueue → ResultQueue) (s : State) : (s.onResult i f).protection = s.protection := rfl
@[simp] theorem State.onResult_freeCount (i : Site) (f : ResultQueue → ResultQueue) (s : State) : (s.onResult i f).freeCount = s.freeCount := rfl
@[simp] theorem State.onResult_due (i : Site) (f : ResultQueue → ResultQueue) (s : State) : (s.onResult i f).due = s.due := rfl
@[simp] theorem State.onResult_pending (i : Site) (f : ResultQueue → ResultQueue) (s : State) : (s.onResult i f).pending = s.pending := rfl

@[simp] theorem State.onLane_inputs (l : LaneId) (f : Lane → Lane) (s : State) : (s.onLane l f).inputs = s.inputs := rfl
@[simp] theorem State.onLane_tables (l : LaneId) (f : Lane → Lane) (s : State) : (s.onLane l f).tables = s.tables := rfl
@[simp] theorem State.onLane_matrix (l : LaneId) (f : Lane → Lane) (s : State) : (s.onLane l f).matrix = s.matrix := rfl
@[simp] theorem State.onLane_engine (l : LaneId) (f : Lane → Lane) (s : State) : (s.onLane l f).engine = s.engine := rfl
@[simp] theorem State.onLane_claims (l : LaneId) (f : Lane → Lane) (s : State) : (s.onLane l f).claims = s.claims := rfl
@[simp] theorem State.onLane_runs (l : LaneId) (f : Lane → Lane) (s : State) : (s.onLane l f).runs = s.runs := rfl
@[simp] theorem State.onLane_results (l : LaneId) (f : Lane → Lane) (s : State) : (s.onLane l f).results = s.results := rfl
@[simp] theorem State.onLane_lanes (l : LaneId) (f : Lane → Lane) (s : State) : (s.onLane l f).lanes = s.lanes.set l (f s.lanes[l]) := rfl
@[simp] theorem State.onLane_taps (l : LaneId) (f : Lane → Lane) (s : State) : (s.onLane l f).taps = s.taps := rfl
@[simp] theorem State.onLane_counters (l : LaneId) (f : Lane → Lane) (s : State) : (s.onLane l f).counters = s.counters := rfl
@[simp] theorem State.onLane_trunk (l : LaneId) (f : Lane → Lane) (s : State) : (s.onLane l f).trunk = s.trunk := rfl
@[simp] theorem State.onLane_protection (l : LaneId) (f : Lane → Lane) (s : State) : (s.onLane l f).protection = s.protection := rfl
@[simp] theorem State.onLane_freeCount (l : LaneId) (f : Lane → Lane) (s : State) : (s.onLane l f).freeCount = s.freeCount := rfl
@[simp] theorem State.onLane_due (l : LaneId) (f : Lane → Lane) (s : State) : (s.onLane l f).due = s.due := rfl
@[simp] theorem State.onLane_pending (l : LaneId) (f : Lane → Lane) (s : State) : (s.onLane l f).pending = s.pending := rfl

@[simp] theorem State.onTap_inputs (t : TapId) (f : Tap → Tap) (s : State) : (s.onTap t f).inputs = s.inputs := rfl
@[simp] theorem State.onTap_tables (t : TapId) (f : Tap → Tap) (s : State) : (s.onTap t f).tables = s.tables := rfl
@[simp] theorem State.onTap_matrix (t : TapId) (f : Tap → Tap) (s : State) : (s.onTap t f).matrix = s.matrix := rfl
@[simp] theorem State.onTap_engine (t : TapId) (f : Tap → Tap) (s : State) : (s.onTap t f).engine = s.engine := rfl
@[simp] theorem State.onTap_claims (t : TapId) (f : Tap → Tap) (s : State) : (s.onTap t f).claims = s.claims := rfl
@[simp] theorem State.onTap_runs (t : TapId) (f : Tap → Tap) (s : State) : (s.onTap t f).runs = s.runs := rfl
@[simp] theorem State.onTap_results (t : TapId) (f : Tap → Tap) (s : State) : (s.onTap t f).results = s.results := rfl
@[simp] theorem State.onTap_lanes (t : TapId) (f : Tap → Tap) (s : State) : (s.onTap t f).lanes = s.lanes := rfl
@[simp] theorem State.onTap_taps (t : TapId) (f : Tap → Tap) (s : State) : (s.onTap t f).taps = s.taps.set t (f s.taps[t]) := rfl
@[simp] theorem State.onTap_counters (t : TapId) (f : Tap → Tap) (s : State) : (s.onTap t f).counters = s.counters := rfl
@[simp] theorem State.onTap_trunk (t : TapId) (f : Tap → Tap) (s : State) : (s.onTap t f).trunk = s.trunk := rfl
@[simp] theorem State.onTap_protection (t : TapId) (f : Tap → Tap) (s : State) : (s.onTap t f).protection = s.protection := rfl
@[simp] theorem State.onTap_freeCount (t : TapId) (f : Tap → Tap) (s : State) : (s.onTap t f).freeCount = s.freeCount := rfl
@[simp] theorem State.onTap_due (t : TapId) (f : Tap → Tap) (s : State) : (s.onTap t f).due = s.due := rfl
@[simp] theorem State.onTap_pending (t : TapId) (f : Tap → Tap) (s : State) : (s.onTap t f).pending = s.pending := rfl

@[simp] theorem State.onCtx_inputs (i : Site) (f : StepContext → StepContext) (s : State) : (s.onCtx i f).inputs = s.inputs := rfl
@[simp] theorem State.onCtx_tables (i : Site) (f : StepContext → StepContext) (s : State) : (s.onCtx i f).tables = s.tables := rfl
@[simp] theorem State.onCtx_matrix (i : Site) (f : StepContext → StepContext) (s : State) : (s.onCtx i f).matrix = s.matrix := rfl
@[simp] theorem State.onCtx_engine (i : Site) (f : StepContext → StepContext) (s : State) : (s.onCtx i f).engine = s.engine := rfl
@[simp] theorem State.onCtx_claims (i : Site) (f : StepContext → StepContext) (s : State) : (s.onCtx i f).claims = s.claims := rfl
@[simp] theorem State.onCtx_runs (i : Site) (f : StepContext → StepContext) (s : State) :
    (s.onCtx i f).runs =
    s.runs.set i (Run.mk s.runs[i].state s.runs[i].step s.runs[i].number s.runs[i].seq s.runs[i].pause s.runs[i].pass s.runs[i].marginal
      s.runs[i].fail s.runs[i].worst s.runs[i].firstFail s.runs[i].stepsRun (s.runs[i].ctx.map f)) := rfl
@[simp] theorem State.onCtx_results (i : Site) (f : StepContext → StepContext) (s : State) : (s.onCtx i f).results = s.results := rfl
@[simp] theorem State.onCtx_lanes (i : Site) (f : StepContext → StepContext) (s : State) : (s.onCtx i f).lanes = s.lanes := rfl
@[simp] theorem State.onCtx_taps (i : Site) (f : StepContext → StepContext) (s : State) : (s.onCtx i f).taps = s.taps := rfl
@[simp] theorem State.onCtx_counters (i : Site) (f : StepContext → StepContext) (s : State) : (s.onCtx i f).counters = s.counters := rfl
@[simp] theorem State.onCtx_trunk (i : Site) (f : StepContext → StepContext) (s : State) : (s.onCtx i f).trunk = s.trunk := rfl
@[simp] theorem State.onCtx_protection (i : Site) (f : StepContext → StepContext) (s : State) : (s.onCtx i f).protection = s.protection := rfl
@[simp] theorem State.onCtx_freeCount (i : Site) (f : StepContext → StepContext) (s : State) : (s.onCtx i f).freeCount = s.freeCount := rfl
@[simp] theorem State.onCtx_due (i : Site) (f : StepContext → StepContext) (s : State) : (s.onCtx i f).due = s.due := rfl
@[simp] theorem State.onCtx_pending (i : Site) (f : StepContext → StepContext) (s : State) : (s.onCtx i f).pending = s.pending := rfl

@[simp] theorem State.elapse_inputs (d : Nat) (s : State) : (s.elapse d).inputs = s.inputs := rfl
@[simp] theorem State.elapse_tables (d : Nat) (s : State) : (s.elapse d).tables = s.tables := rfl
@[simp] theorem State.elapse_matrix (d : Nat) (s : State) : (s.elapse d).matrix = s.matrix := rfl
@[simp] theorem State.elapse_engine (d : Nat) (s : State) : (s.elapse d).engine =
    { s.engine with queue := s.engine.queue.map (Commit.elapse d), flight := s.engine.flight.map (Transition.elapse d) } := rfl
@[simp] theorem State.elapse_claims (d : Nat) (s : State) : (s.elapse d).claims =
    { s.claims with timers := Vector.ofFn fun i : Site => tickTimer d s.claims.timers[i] } := rfl
@[simp] theorem State.elapse_runs (d : Nat) (s : State) : (s.elapse d).runs =
    Vector.ofFn fun i : Site => s.runs[i].elapse d := rfl
@[simp] theorem State.elapse_results (d : Nat) (s : State) : (s.elapse d).results = s.results := rfl
@[simp] theorem State.elapse_lanes (d : Nat) (s : State) : (s.elapse d).lanes =
    Vector.ofFn fun l : LaneId => s.lanes[l].elapse d := rfl
@[simp] theorem State.elapse_taps (d : Nat) (s : State) : (s.elapse d).taps = s.taps := rfl
@[simp] theorem State.elapse_counters (d : Nat) (s : State) : (s.elapse d).counters = s.counters := rfl
@[simp] theorem State.elapse_trunk (d : Nat) (s : State) : (s.elapse d).trunk = s.trunk := rfl
@[simp] theorem State.elapse_protection (d : Nat) (s : State) : (s.elapse d).protection =
    { s.protection with timer := tickTimer d s.protection.timer } := rfl
@[simp] theorem State.elapse_freeCount (d : Nat) (s : State) : (s.elapse d).freeCount = s.freeCount := rfl
@[simp] theorem State.elapse_due (d : Nat) (s : State) : (s.elapse d).due = s.due := rfl
@[simp] theorem State.elapse_pending (d : Nat) (s : State) : (s.elapse d).pending = s.pending := rfl

end Sys2Proof.Machine
end

