-- ==== Sys2Proof/Laws/Ops.lean ====
section
/-! SUPPORT. What each shared operation leaves unchanged. -/

set_option linter.unusedTactic false
set_option linter.unreachableTactic false
set_option linter.unnecessarySeqFocus false

namespace Sys2Proof.Machine

/-- What every step of a fold keeps, the fold keeps. -/
theorem foldl_keeps {α β : Type} (p : State → β) (f : State → α → State) (h : ∀ s a, p (f s a) = p s) (l : List α) (s : State) :
    p (l.foldl f s) = p s := by
  induction l generalizing s with
  | nil => rfl
  | cons a l ih => rw [List.foldl_cons, ih, h]

@[simp] theorem raise_keeps (e : Event) (s : State) :
    (raise e s).inputs = s.inputs ∧ (raise e s).tables = s.tables ∧ (raise e s).matrix = s.matrix
    ∧ (raise e s).engine = s.engine ∧ (raise e s).claims = s.claims ∧ (raise e s).runs = s.runs
    ∧ (raise e s).results = s.results ∧ (raise e s).lanes = s.lanes ∧ (raise e s).taps = s.taps
    ∧ (raise e s).counters = s.counters ∧ (raise e s).protection = s.protection ∧ (raise e s).freeCount = s.freeCount
    ∧ (raise e s).due = s.due ∧ (raise e s).pending = s.pending := by
  refine ⟨?_, ?_, ?_, ?_, ?_, ?_, ?_, ?_, ?_, ?_, ?_, ?_, ?_, ?_⟩ <;>
    (unfold raise; (repeat' split) <;> simp)

@[simp] theorem raiseFree_keeps (es : List Event) (s : State) :
    (raiseFree es s).inputs = s.inputs ∧ (raiseFree es s).tables = s.tables ∧ (raiseFree es s).matrix = s.matrix
    ∧ (raiseFree es s).engine = s.engine ∧ (raiseFree es s).claims = s.claims ∧ (raiseFree es s).runs = s.runs
    ∧ (raiseFree es s).results = s.results ∧ (raiseFree es s).lanes = s.lanes ∧ (raiseFree es s).taps = s.taps
    ∧ (raiseFree es s).counters = s.counters ∧ (raiseFree es s).protection = s.protection ∧ (raiseFree es s).due = s.due
    ∧ (raiseFree es s).pending = s.pending := by
  unfold raiseFree
  exact ⟨(foldl_keeps (fun s => s.inputs) _ (fun s a => by simp) _ _).trans rfl,
    (foldl_keeps (fun s => s.tables) _ (fun s a => by simp) _ _).trans rfl,
    (foldl_keeps (fun s => s.matrix) _ (fun s a => by simp) _ _).trans rfl,
    (foldl_keeps (fun s => s.engine) _ (fun s a => by simp) _ _).trans rfl,
    (foldl_keeps (fun s => s.claims) _ (fun s a => by simp) _ _).trans rfl,
    (foldl_keeps (fun s => s.runs) _ (fun s a => by simp) _ _).trans rfl,
    (foldl_keeps (fun s => s.results) _ (fun s a => by simp) _ _).trans rfl,
    (foldl_keeps (fun s => s.lanes) _ (fun s a => by simp) _ _).trans rfl,
    (foldl_keeps (fun s => s.taps) _ (fun s a => by simp) _ _).trans rfl,
    (foldl_keeps (fun s => s.counters) _ (fun s a => by simp) _ _).trans rfl,
    (foldl_keeps (fun s => s.protection) _ (fun s a => by simp) _ _).trans rfl,
    (foldl_keeps (fun s => s.due) _ (fun s a => by simp) _ _).trans rfl,
    (foldl_keeps (fun s => s.pending) _ (fun s a => by simp) _ _).trans rfl⟩

@[simp] theorem raiseDue_keeps (e : Event) (s : State) :
    (raiseDue e s).inputs = s.inputs ∧ (raiseDue e s).tables = s.tables ∧ (raiseDue e s).matrix = s.matrix
    ∧ (raiseDue e s).engine = s.engine ∧ (raiseDue e s).claims = s.claims ∧ (raiseDue e s).runs = s.runs
    ∧ (raiseDue e s).results = s.results ∧ (raiseDue e s).lanes = s.lanes ∧ (raiseDue e s).taps = s.taps
    ∧ (raiseDue e s).counters = s.counters ∧ (raiseDue e s).trunk = s.trunk ∧ (raiseDue e s).protection = s.protection
    ∧ (raiseDue e s).freeCount = s.freeCount ∧ (raiseDue e s).pending = s.pending := by
  refine ⟨?_, ?_, ?_, ?_, ?_, ?_, ?_, ?_, ?_, ?_, ?_, ?_, ?_, ?_⟩ <;>
    (rfl)

@[simp] theorem respond_keeps (tag : Tag) (code : Byte) (st : Status) (data : List Byte) (s : State) :
    (respond tag code st data s).inputs = s.inputs ∧ (respond tag code st data s).tables = s.tables
    ∧ (respond tag code st data s).matrix = s.matrix ∧ (respond tag code st data s).engine = s.engine
    ∧ (respond tag code st data s).claims = s.claims ∧ (respond tag code st data s).runs = s.runs
    ∧ (respond tag code st data s).results = s.results ∧ (respond tag code st data s).lanes = s.lanes
    ∧ (respond tag code st data s).taps = s.taps ∧ (respond tag code st data s).counters = s.counters
    ∧ (respond tag code st data s).protection = s.protection ∧ (respond tag code st data s).freeCount = s.freeCount
    ∧ (respond tag code st data s).due = s.due ∧ (respond tag code st data s).pending = s.pending := by
  refine ⟨?_, ?_, ?_, ?_, ?_, ?_, ?_, ?_, ?_, ?_, ?_, ?_, ?_, ?_⟩ <;>
    (rfl)

@[simp] theorem answerPatch_keeps (tag : Tag) (st : Status) (data : List Byte) (s : State) :
    (answerPatch tag st data s).inputs = s.inputs ∧ (answerPatch tag st data s).tables = s.tables
    ∧ (answerPatch tag st data s).matrix = s.matrix ∧ (answerPatch tag st data s).engine = s.engine
    ∧ (answerPatch tag st data s).claims = s.claims ∧ (answerPatch tag st data s).runs = s.runs
    ∧ (answerPatch tag st data s).results = s.results ∧ (answerPatch tag st data s).lanes = s.lanes
    ∧ (answerPatch tag st data s).taps = s.taps ∧ (answerPatch tag st data s).counters = s.counters
    ∧ (answerPatch tag st data s).protection = s.protection ∧ (answerPatch tag st data s).freeCount = s.freeCount
    ∧ (answerPatch tag st data s).due = s.due ∧ (answerPatch tag st data s).pending = s.pending := by
  refine ⟨?_, ?_, ?_, ?_, ?_, ?_, ?_, ?_, ?_, ?_, ?_, ?_, ?_, ?_⟩ <;>
    (rfl)

@[simp] theorem countDrop_keeps  (s : State) :
    (countDrop s).inputs = s.inputs ∧ (countDrop s).tables = s.tables ∧ (countDrop s).matrix = s.matrix
    ∧ (countDrop s).engine = s.engine ∧ (countDrop s).claims = s.claims ∧ (countDrop s).runs = s.runs
    ∧ (countDrop s).results = s.results ∧ (countDrop s).lanes = s.lanes ∧ (countDrop s).taps = s.taps
    ∧ (countDrop s).trunk = s.trunk ∧ (countDrop s).protection = s.protection ∧ (countDrop s).freeCount = s.freeCount
    ∧ (countDrop s).due = s.due ∧ (countDrop s).pending = s.pending := by
  refine ⟨?_, ?_, ?_, ?_, ?_, ?_, ?_, ?_, ?_, ?_, ?_, ?_, ?_, ?_⟩ <;>
    (rfl)

@[simp] theorem countBad_keeps  (s : State) :
    (countBad s).inputs = s.inputs ∧ (countBad s).tables = s.tables ∧ (countBad s).matrix = s.matrix
    ∧ (countBad s).engine = s.engine ∧ (countBad s).claims = s.claims ∧ (countBad s).runs = s.runs
    ∧ (countBad s).results = s.results ∧ (countBad s).lanes = s.lanes ∧ (countBad s).taps = s.taps
    ∧ (countBad s).trunk = s.trunk ∧ (countBad s).protection = s.protection ∧ (countBad s).freeCount = s.freeCount
    ∧ (countBad s).due = s.due ∧ (countBad s).pending = s.pending := by
  refine ⟨?_, ?_, ?_, ?_, ?_, ?_, ?_, ?_, ?_, ?_, ?_, ?_, ?_, ?_⟩ <;>
    (rfl)

@[simp] theorem bounce_keeps (r : BounceReason) (f : Frame) (s : State) :
    (bounce r f s).inputs = s.inputs ∧ (bounce r f s).tables = s.tables ∧ (bounce r f s).matrix = s.matrix
    ∧ (bounce r f s).engine = s.engine ∧ (bounce r f s).claims = s.claims ∧ (bounce r f s).runs = s.runs
    ∧ (bounce r f s).results = s.results ∧ (bounce r f s).lanes = s.lanes ∧ (bounce r f s).taps = s.taps
    ∧ (bounce r f s).protection = s.protection ∧ (bounce r f s).freeCount = s.freeCount ∧ (bounce r f s).due = s.due
    ∧ (bounce r f s).pending = s.pending := by
  refine ⟨?_, ?_, ?_, ?_, ?_, ?_, ?_, ?_, ?_, ?_, ?_, ?_, ?_⟩ <;>
    (unfold bounce; (repeat' split) <;> simp)

@[simp] theorem forwardUp_keeps (l : LaneId) (f : Frame) (s : State) :
    (forwardUp l f s).inputs = s.inputs ∧ (forwardUp l f s).tables = s.tables ∧ (forwardUp l f s).matrix = s.matrix
    ∧ (forwardUp l f s).engine = s.engine ∧ (forwardUp l f s).claims = s.claims ∧ (forwardUp l f s).runs = s.runs
    ∧ (forwardUp l f s).results = s.results ∧ (forwardUp l f s).taps = s.taps ∧ (forwardUp l f s).trunk = s.trunk
    ∧ (forwardUp l f s).protection = s.protection ∧ (forwardUp l f s).freeCount = s.freeCount
    ∧ (forwardUp l f s).due = s.due ∧ (forwardUp l f s).pending = s.pending := by
  refine ⟨?_, ?_, ?_, ?_, ?_, ?_, ?_, ?_, ?_, ?_, ?_, ?_, ?_⟩ <;>
    (unfold forwardUp; (repeat' split) <;> simp)

@[simp] theorem queuePart_keeps (l : LaneId) (f : Frame) (s : State) :
    (queuePart l f s).inputs = s.inputs ∧ (queuePart l f s).tables = s.tables ∧ (queuePart l f s).matrix = s.matrix
    ∧ (queuePart l f s).engine = s.engine ∧ (queuePart l f s).claims = s.claims ∧ (queuePart l f s).runs = s.runs
    ∧ (queuePart l f s).results = s.results ∧ (queuePart l f s).taps = s.taps ∧ (queuePart l f s).protection = s.protection
    ∧ (queuePart l f s).freeCount = s.freeCount ∧ (queuePart l f s).due = s.due ∧ (queuePart l f s).pending = s.pending := by
  refine ⟨?_, ?_, ?_, ?_, ?_, ?_, ?_, ?_, ?_, ?_, ?_, ?_⟩ <;>
    (unfold queuePart; dsimp only; (repeat' split) <;> simp)

@[simp] theorem State.onClaim_keeps (l : LaneId) (f : ClaimRecord → ClaimRecord) (s : State) :
    (State.onClaim l f s).inputs = s.inputs ∧ (State.onClaim l f s).tables = s.tables
    ∧ (State.onClaim l f s).matrix = s.matrix ∧ (State.onClaim l f s).engine = s.engine
    ∧ (State.onClaim l f s).runs = s.runs ∧ (State.onClaim l f s).results = s.results
    ∧ (State.onClaim l f s).lanes = s.lanes ∧ (State.onClaim l f s).taps = s.taps
    ∧ (State.onClaim l f s).counters = s.counters ∧ (State.onClaim l f s).trunk = s.trunk
    ∧ (State.onClaim l f s).protection = s.protection ∧ (State.onClaim l f s).freeCount = s.freeCount
    ∧ (State.onClaim l f s).due = s.due ∧ (State.onClaim l f s).pending = s.pending := by
  refine ⟨?_, ?_, ?_, ?_, ?_, ?_, ?_, ?_, ?_, ?_, ?_, ?_, ?_, ?_⟩ <;>
    (rfl)

@[simp] theorem State.setClaimTimer_keeps (i : Site) (t : Option Nat) (s : State) :
    (State.setClaimTimer i t s).inputs = s.inputs ∧ (State.setClaimTimer i t s).tables = s.tables
    ∧ (State.setClaimTimer i t s).matrix = s.matrix ∧ (State.setClaimTimer i t s).engine = s.engine
    ∧ (State.setClaimTimer i t s).runs = s.runs ∧ (State.setClaimTimer i t s).results = s.results
    ∧ (State.setClaimTimer i t s).lanes = s.lanes ∧ (State.setClaimTimer i t s).taps = s.taps
    ∧ (State.setClaimTimer i t s).counters = s.counters ∧ (State.setClaimTimer i t s).trunk = s.trunk
    ∧ (State.setClaimTimer i t s).protection = s.protection ∧ (State.setClaimTimer i t s).freeCount = s.freeCount
    ∧ (State.setClaimTimer i t s).due = s.due ∧ (State.setClaimTimer i t s).pending = s.pending := by
  refine ⟨?_, ?_, ?_, ?_, ?_, ?_, ?_, ?_, ?_, ?_, ?_, ?_, ?_, ?_⟩ <;>
    (rfl)

@[simp] theorem releaseLane_keeps (l : LaneId) (s : State) :
    (releaseLane l s).inputs = s.inputs ∧ (releaseLane l s).tables = s.tables ∧ (releaseLane l s).matrix = s.matrix
    ∧ (releaseLane l s).engine = s.engine ∧ (releaseLane l s).results = s.results ∧ (releaseLane l s).lanes = s.lanes
    ∧ (releaseLane l s).taps = s.taps ∧ (releaseLane l s).counters = s.counters ∧ (releaseLane l s).trunk = s.trunk
    ∧ (releaseLane l s).protection = s.protection ∧ (releaseLane l s).freeCount = s.freeCount
    ∧ (releaseLane l s).due = s.due ∧ (releaseLane l s).pending = s.pending := by
  refine ⟨?_, ?_, ?_, ?_, ?_, ?_, ?_, ?_, ?_, ?_, ?_, ?_, ?_⟩ <;>
    (unfold releaseLane; (repeat' split) <;> simp)

@[simp] theorem releaseAny_keeps (i : Site) (s : State) :
    (releaseAny i s).inputs = s.inputs ∧ (releaseAny i s).tables = s.tables ∧ (releaseAny i s).matrix = s.matrix
    ∧ (releaseAny i s).engine = s.engine ∧ (releaseAny i s).results = s.results ∧ (releaseAny i s).lanes = s.lanes
    ∧ (releaseAny i s).taps = s.taps ∧ (releaseAny i s).counters = s.counters ∧ (releaseAny i s).trunk = s.trunk
    ∧ (releaseAny i s).protection = s.protection ∧ (releaseAny i s).freeCount = s.freeCount ∧ (releaseAny i s).due = s.due
    ∧ (releaseAny i s).pending = s.pending := by
  refine ⟨?_, ?_, ?_, ?_, ?_, ?_, ?_, ?_, ?_, ?_, ?_, ?_, ?_⟩ <;>
    (unfold releaseAny; (repeat' split) <;> simp)

@[simp] theorem releaseIfHeld_keeps (i : Site) (l : LaneId) (s : State) :
    (releaseIfHeld i l s).inputs = s.inputs ∧ (releaseIfHeld i l s).tables = s.tables
    ∧ (releaseIfHeld i l s).matrix = s.matrix ∧ (releaseIfHeld i l s).engine = s.engine
    ∧ (releaseIfHeld i l s).results = s.results ∧ (releaseIfHeld i l s).lanes = s.lanes
    ∧ (releaseIfHeld i l s).taps = s.taps ∧ (releaseIfHeld i l s).counters = s.counters
    ∧ (releaseIfHeld i l s).trunk = s.trunk ∧ (releaseIfHeld i l s).protection = s.protection
    ∧ (releaseIfHeld i l s).freeCount = s.freeCount ∧ (releaseIfHeld i l s).due = s.due
    ∧ (releaseIfHeld i l s).pending = s.pending := by
  refine ⟨?_, ?_, ?_, ?_, ?_, ?_, ?_, ?_, ?_, ?_, ?_, ?_, ?_⟩ <;>
    (unfold releaseIfHeld; (repeat' split) <;> simp)

@[simp] theorem releaseOther_keeps (i : Site) (k : Option LaneId) (s : State) :
    (releaseOther i k s).inputs = s.inputs ∧ (releaseOther i k s).tables = s.tables ∧ (releaseOther i k s).matrix = s.matrix
    ∧ (releaseOther i k s).engine = s.engine ∧ (releaseOther i k s).results = s.results
    ∧ (releaseOther i k s).lanes = s.lanes ∧ (releaseOther i k s).taps = s.taps ∧ (releaseOther i k s).counters = s.counters
    ∧ (releaseOther i k s).trunk = s.trunk ∧ (releaseOther i k s).protection = s.protection
    ∧ (releaseOther i k s).freeCount = s.freeCount ∧ (releaseOther i k s).due = s.due
    ∧ (releaseOther i k s).pending = s.pending := by
  refine ⟨?_, ?_, ?_, ?_, ?_, ?_, ?_, ?_, ?_, ?_, ?_, ?_, ?_⟩ <;>
    (unfold releaseOther; (repeat' split) <;> simp)

@[simp] theorem leaveWaits_keeps (i : Site) (s : State) :
    (leaveWaits i s).inputs = s.inputs ∧ (leaveWaits i s).tables = s.tables ∧ (leaveWaits i s).matrix = s.matrix
    ∧ (leaveWaits i s).engine = s.engine ∧ (leaveWaits i s).runs = s.runs ∧ (leaveWaits i s).results = s.results
    ∧ (leaveWaits i s).lanes = s.lanes ∧ (leaveWaits i s).taps = s.taps ∧ (leaveWaits i s).counters = s.counters
    ∧ (leaveWaits i s).trunk = s.trunk ∧ (leaveWaits i s).protection = s.protection
    ∧ (leaveWaits i s).freeCount = s.freeCount ∧ (leaveWaits i s).due = s.due ∧ (leaveWaits i s).pending = s.pending := by
  refine ⟨?_, ?_, ?_, ?_, ?_, ?_, ?_, ?_, ?_, ?_, ?_, ?_, ?_, ?_⟩ <;>
    (unfold leaveWaits; (repeat' split) <;> simp)

@[simp] theorem grant_keeps (l : LaneId) (i : Site) (s : State) :
    (grant l i s).inputs = s.inputs ∧ (grant l i s).tables = s.tables ∧ (grant l i s).matrix = s.matrix
    ∧ (grant l i s).engine = s.engine ∧ (grant l i s).runs = s.runs ∧ (grant l i s).results = s.results
    ∧ (grant l i s).lanes = s.lanes ∧ (grant l i s).taps = s.taps ∧ (grant l i s).counters = s.counters
    ∧ (grant l i s).trunk = s.trunk ∧ (grant l i s).protection = s.protection ∧ (grant l i s).freeCount = s.freeCount
    ∧ (grant l i s).due = s.due ∧ (grant l i s).pending = s.pending := by
  refine ⟨?_, ?_, ?_, ?_, ?_, ?_, ?_, ?_, ?_, ?_, ?_, ?_, ?_, ?_⟩ <;>
    (unfold grant; (repeat' split) <;> simp)

@[simp] theorem joinWaits_keeps (l : LaneId) (i : Site) (s : State) :
    (joinWaits l i s).inputs = s.inputs ∧ (joinWaits l i s).tables = s.tables ∧ (joinWaits l i s).matrix = s.matrix
    ∧ (joinWaits l i s).engine = s.engine ∧ (joinWaits l i s).runs = s.runs ∧ (joinWaits l i s).results = s.results
    ∧ (joinWaits l i s).lanes = s.lanes ∧ (joinWaits l i s).taps = s.taps ∧ (joinWaits l i s).counters = s.counters
    ∧ (joinWaits l i s).trunk = s.trunk ∧ (joinWaits l i s).protection = s.protection
    ∧ (joinWaits l i s).freeCount = s.freeCount ∧ (joinWaits l i s).due = s.due ∧ (joinWaits l i s).pending = s.pending := by
  refine ⟨?_, ?_, ?_, ?_, ?_, ?_, ?_, ?_, ?_, ?_, ?_, ?_, ?_, ?_⟩ <;>
    (unfold joinWaits; (repeat' split) <;> simp)

@[simp] theorem abandonClaims_keeps (i : Site) (s : State) :
    (abandonClaims i s).inputs = s.inputs ∧ (abandonClaims i s).tables = s.tables ∧ (abandonClaims i s).matrix = s.matrix
    ∧ (abandonClaims i s).engine = s.engine ∧ (abandonClaims i s).results = s.results ∧ (abandonClaims i s).lanes = s.lanes
    ∧ (abandonClaims i s).taps = s.taps ∧ (abandonClaims i s).counters = s.counters ∧ (abandonClaims i s).trunk = s.trunk
    ∧ (abandonClaims i s).protection = s.protection ∧ (abandonClaims i s).freeCount = s.freeCount
    ∧ (abandonClaims i s).due = s.due ∧ (abandonClaims i s).pending = s.pending := by
  refine ⟨?_, ?_, ?_, ?_, ?_, ?_, ?_, ?_, ?_, ?_, ?_, ?_, ?_⟩ <;>
    (unfold abandonClaims; (repeat' split) <;> simp)

@[simp] theorem clearClaims_keeps  (s : State) :
    (clearClaims s).inputs = s.inputs ∧ (clearClaims s).tables = s.tables ∧ (clearClaims s).matrix = s.matrix
    ∧ (clearClaims s).engine = s.engine ∧ (clearClaims s).runs = s.runs ∧ (clearClaims s).results = s.results
    ∧ (clearClaims s).lanes = s.lanes ∧ (clearClaims s).taps = s.taps ∧ (clearClaims s).counters = s.counters
    ∧ (clearClaims s).trunk = s.trunk ∧ (clearClaims s).protection = s.protection ∧ (clearClaims s).freeCount = s.freeCount
    ∧ (clearClaims s).due = s.due ∧ (clearClaims s).pending = s.pending := by
  refine ⟨?_, ?_, ?_, ?_, ?_, ?_, ?_, ?_, ?_, ?_, ?_, ?_, ?_, ?_⟩ <;>
    (rfl)

@[simp] theorem raiseFlags_keeps (b : BusSet) (s : State) :
    (raiseFlags b s).inputs = s.inputs ∧ (raiseFlags b s).tables = s.tables ∧ (raiseFlags b s).matrix = s.matrix
    ∧ (raiseFlags b s).claims = s.claims ∧ (raiseFlags b s).results = s.results ∧ (raiseFlags b s).lanes = s.lanes
    ∧ (raiseFlags b s).taps = s.taps ∧ (raiseFlags b s).counters = s.counters ∧ (raiseFlags b s).trunk = s.trunk
    ∧ (raiseFlags b s).protection = s.protection ∧ (raiseFlags b s).freeCount = s.freeCount ∧ (raiseFlags b s).due = s.due
    ∧ (raiseFlags b s).pending = s.pending := by
  refine ⟨?_, ?_, ?_, ?_, ?_, ?_, ?_, ?_, ?_, ?_, ?_, ?_, ?_⟩ <;>
    (rfl)

@[simp] theorem raiseHot_keeps (before : State) (s : State) :
    (raiseHot before s).inputs = s.inputs ∧ (raiseHot before s).tables = s.tables ∧ (raiseHot before s).matrix = s.matrix
    ∧ (raiseHot before s).engine = s.engine ∧ (raiseHot before s).claims = s.claims ∧ (raiseHot before s).runs = s.runs
    ∧ (raiseHot before s).results = s.results ∧ (raiseHot before s).lanes = s.lanes ∧ (raiseHot before s).taps = s.taps
    ∧ (raiseHot before s).counters = s.counters ∧ (raiseHot before s).protection = s.protection
    ∧ (raiseHot before s).due = s.due ∧ (raiseHot before s).pending = s.pending := by
  refine ⟨?_, ?_, ?_, ?_, ?_, ?_, ?_, ?_, ?_, ?_, ?_, ?_, ?_⟩ <;>
    (unfold raiseHot; (repeat' split) <;> simp)

@[simp] theorem startLoad_keeps (i : Site) (n : StepId) (s : State) :
    (startLoad i n s).inputs = s.inputs ∧ (startLoad i n s).tables = s.tables ∧ (startLoad i n s).matrix = s.matrix
    ∧ (startLoad i n s).engine = s.engine ∧ (startLoad i n s).claims = s.claims ∧ (startLoad i n s).results = s.results
    ∧ (startLoad i n s).lanes = s.lanes ∧ (startLoad i n s).taps = s.taps ∧ (startLoad i n s).counters = s.counters
    ∧ (startLoad i n s).trunk = s.trunk ∧ (startLoad i n s).protection = s.protection
    ∧ (startLoad i n s).freeCount = s.freeCount ∧ (startLoad i n s).due = s.due ∧ (startLoad i n s).pending = s.pending := by
  refine ⟨?_, ?_, ?_, ?_, ?_, ?_, ?_, ?_, ?_, ?_, ?_, ?_, ?_, ?_⟩ <;>
    (rfl)

@[simp] theorem enterJudge_keeps (i : Site) (s : State) :
    (enterJudge i s).inputs = s.inputs ∧ (enterJudge i s).tables = s.tables ∧ (enterJudge i s).matrix = s.matrix
    ∧ (enterJudge i s).engine = s.engine ∧ (enterJudge i s).claims = s.claims ∧ (enterJudge i s).results = s.results
    ∧ (enterJudge i s).lanes = s.lanes ∧ (enterJudge i s).taps = s.taps ∧ (enterJudge i s).counters = s.counters
    ∧ (enterJudge i s).trunk = s.trunk ∧ (enterJudge i s).protection = s.protection
    ∧ (enterJudge i s).freeCount = s.freeCount ∧ (enterJudge i s).due = s.due ∧ (enterJudge i s).pending = s.pending := by
  refine ⟨?_, ?_, ?_, ?_, ?_, ?_, ?_, ?_, ?_, ?_, ?_, ?_, ?_, ?_⟩ <;>
    (rfl)

@[simp] theorem failStep_keeps (i : Site) (c : Cause) (s : State) :
    (failStep i c s).inputs = s.inputs ∧ (failStep i c s).tables = s.tables ∧ (failStep i c s).matrix = s.matrix
    ∧ (failStep i c s).engine = s.engine ∧ (failStep i c s).claims = s.claims ∧ (failStep i c s).results = s.results
    ∧ (failStep i c s).lanes = s.lanes ∧ (failStep i c s).taps = s.taps ∧ (failStep i c s).counters = s.counters
    ∧ (failStep i c s).trunk = s.trunk ∧ (failStep i c s).protection = s.protection
    ∧ (failStep i c s).freeCount = s.freeCount ∧ (failStep i c s).due = s.due ∧ (failStep i c s).pending = s.pending := by
  refine ⟨?_, ?_, ?_, ?_, ?_, ?_, ?_, ?_, ?_, ?_, ?_, ?_, ?_, ?_⟩ <;>
    (rfl)

@[simp] theorem enterSettle_keeps (i : Site) (s : State) :
    (enterSettle i s).inputs = s.inputs ∧ (enterSettle i s).tables = s.tables ∧ (enterSettle i s).matrix = s.matrix
    ∧ (enterSettle i s).engine = s.engine ∧ (enterSettle i s).claims = s.claims ∧ (enterSettle i s).results = s.results
    ∧ (enterSettle i s).lanes = s.lanes ∧ (enterSettle i s).taps = s.taps ∧ (enterSettle i s).counters = s.counters
    ∧ (enterSettle i s).trunk = s.trunk ∧ (enterSettle i s).protection = s.protection
    ∧ (enterSettle i s).freeCount = s.freeCount ∧ (enterSettle i s).due = s.due ∧ (enterSettle i s).pending = s.pending := by
  refine ⟨?_, ?_, ?_, ?_, ?_, ?_, ?_, ?_, ?_, ?_, ?_, ?_, ?_, ?_⟩ <;>
    (rfl)

@[simp] theorem placeSummary_keeps (i : Site) (c : EndCause) (s : State) :
    (placeSummary i c s).inputs = s.inputs ∧ (placeSummary i c s).tables = s.tables ∧ (placeSummary i c s).matrix = s.matrix
    ∧ (placeSummary i c s).engine = s.engine ∧ (placeSummary i c s).claims = s.claims ∧ (placeSummary i c s).runs = s.runs
    ∧ (placeSummary i c s).lanes = s.lanes ∧ (placeSummary i c s).taps = s.taps ∧ (placeSummary i c s).counters = s.counters
    ∧ (placeSummary i c s).trunk = s.trunk ∧ (placeSummary i c s).protection = s.protection
    ∧ (placeSummary i c s).freeCount = s.freeCount ∧ (placeSummary i c s).due = s.due
    ∧ (placeSummary i c s).pending = s.pending := by
  refine ⟨?_, ?_, ?_, ?_, ?_, ?_, ?_, ?_, ?_, ?_, ?_, ?_, ?_, ?_⟩ <;>
    (rfl)

@[simp] theorem placeRecord_keeps (i : Site) (c : StepContext) (s : State) :
    (placeRecord i c s).inputs = s.inputs ∧ (placeRecord i c s).tables = s.tables ∧ (placeRecord i c s).matrix = s.matrix
    ∧ (placeRecord i c s).engine = s.engine ∧ (placeRecord i c s).claims = s.claims ∧ (placeRecord i c s).lanes = s.lanes
    ∧ (placeRecord i c s).taps = s.taps ∧ (placeRecord i c s).counters = s.counters ∧ (placeRecord i c s).trunk = s.trunk
    ∧ (placeRecord i c s).protection = s.protection ∧ (placeRecord i c s).freeCount = s.freeCount
    ∧ (placeRecord i c s).due = s.due ∧ (placeRecord i c s).pending = s.pending := by
  refine ⟨?_, ?_, ?_, ?_, ?_, ?_, ?_, ?_, ?_, ?_, ?_, ?_, ?_⟩ <;>
    (rfl)

@[simp] theorem endRun_keeps (i : Site) (s : State) :
    (endRun i s).inputs = s.inputs ∧ (endRun i s).tables = s.tables ∧ (endRun i s).matrix = s.matrix
    ∧ (endRun i s).engine = s.engine ∧ (endRun i s).lanes = s.lanes ∧ (endRun i s).taps = s.taps
    ∧ (endRun i s).counters = s.counters ∧ (endRun i s).trunk = s.trunk ∧ (endRun i s).protection = s.protection
    ∧ (endRun i s).freeCount = s.freeCount ∧ (endRun i s).due = s.due ∧ (endRun i s).pending = s.pending := by
  refine ⟨?_, ?_, ?_, ?_, ?_, ?_, ?_, ?_, ?_, ?_, ?_, ?_⟩ <;>
    (unfold endRun; (repeat' split) <;> simp)

@[simp] theorem pauseSite_keeps (i : Site) (r : PauseReason) (s : State) :
    (pauseSite i r s).inputs = s.inputs ∧ (pauseSite i r s).tables = s.tables ∧ (pauseSite i r s).matrix = s.matrix
    ∧ (pauseSite i r s).engine = s.engine ∧ (pauseSite i r s).results = s.results ∧ (pauseSite i r s).lanes = s.lanes
    ∧ (pauseSite i r s).taps = s.taps ∧ (pauseSite i r s).counters = s.counters
    ∧ (pauseSite i r s).protection = s.protection ∧ (pauseSite i r s).freeCount = s.freeCount
    ∧ (pauseSite i r s).due = s.due ∧ (pauseSite i r s).pending = s.pending := by
  refine ⟨?_, ?_, ?_, ?_, ?_, ?_, ?_, ?_, ?_, ?_, ?_, ?_⟩ <;>
    (unfold pauseSite; (repeat' split) <;> simp)

@[simp] theorem releasePhase_keeps (i : Site) (c : StepContext) (s : State) :
    (releasePhase i c s).inputs = s.inputs ∧ (releasePhase i c s).tables = s.tables ∧ (releasePhase i c s).matrix = s.matrix
    ∧ (releasePhase i c s).engine = s.engine ∧ (releasePhase i c s).lanes = s.lanes ∧ (releasePhase i c s).taps = s.taps
    ∧ (releasePhase i c s).counters = s.counters ∧ (releasePhase i c s).protection = s.protection
    ∧ (releasePhase i c s).freeCount = s.freeCount ∧ (releasePhase i c s).due = s.due
    ∧ (releasePhase i c s).pending = s.pending := by
  refine ⟨?_, ?_, ?_, ?_, ?_, ?_, ?_, ?_, ?_, ?_, ?_⟩ <;>
    (unfold releasePhase; dsimp only; (repeat' split) <;> simp)

@[simp] theorem loadPhase_keeps (i : Site) (c : StepContext) (s : State) :
    (loadPhase i c s).inputs = s.inputs ∧ (loadPhase i c s).tables = s.tables ∧ (loadPhase i c s).matrix = s.matrix
    ∧ (loadPhase i c s).engine = s.engine ∧ (loadPhase i c s).results = s.results ∧ (loadPhase i c s).lanes = s.lanes
    ∧ (loadPhase i c s).taps = s.taps ∧ (loadPhase i c s).counters = s.counters ∧ (loadPhase i c s).trunk = s.trunk
    ∧ (loadPhase i c s).protection = s.protection ∧ (loadPhase i c s).freeCount = s.freeCount
    ∧ (loadPhase i c s).due = s.due ∧ (loadPhase i c s).pending = s.pending := by
  refine ⟨?_, ?_, ?_, ?_, ?_, ?_, ?_, ?_, ?_, ?_, ?_, ?_, ?_⟩ <;>
    (unfold loadPhase; (repeat' split) <;> simp)

@[simp] theorem claimPhase_keeps (i : Site) (c : StepContext) (s : State) :
    (claimPhase i c s).inputs = s.inputs ∧ (claimPhase i c s).tables = s.tables ∧ (claimPhase i c s).matrix = s.matrix
    ∧ (claimPhase i c s).engine = s.engine ∧ (claimPhase i c s).results = s.results ∧ (claimPhase i c s).lanes = s.lanes
    ∧ (claimPhase i c s).taps = s.taps ∧ (claimPhase i c s).counters = s.counters ∧ (claimPhase i c s).trunk = s.trunk
    ∧ (claimPhase i c s).protection = s.protection ∧ (claimPhase i c s).freeCount = s.freeCount
    ∧ (claimPhase i c s).due = s.due ∧ (claimPhase i c s).pending = s.pending := by
  refine ⟨?_, ?_, ?_, ?_, ?_, ?_, ?_, ?_, ?_, ?_, ?_, ?_, ?_⟩ <;>
    (unfold claimPhase; (repeat' split) <;> simp)

@[simp] theorem enqueue_keeps (c : Commit) (s : State) :
    (enqueue c s).inputs = s.inputs ∧ (enqueue c s).tables = s.tables ∧ (enqueue c s).matrix = s.matrix
    ∧ (enqueue c s).claims = s.claims ∧ (enqueue c s).runs = s.runs ∧ (enqueue c s).results = s.results
    ∧ (enqueue c s).lanes = s.lanes ∧ (enqueue c s).taps = s.taps ∧ (enqueue c s).counters = s.counters
    ∧ (enqueue c s).trunk = s.trunk ∧ (enqueue c s).protection = s.protection ∧ (enqueue c s).freeCount = s.freeCount
    ∧ (enqueue c s).due = s.due ∧ (enqueue c s).pending = s.pending := by
  refine ⟨?_, ?_, ?_, ?_, ?_, ?_, ?_, ?_, ?_, ?_, ?_, ?_, ?_, ?_⟩ <;>
    (rfl)

@[simp] theorem applyPhase_keeps (i : Site) (c : StepContext) (s : State) :
    (applyPhase i c s).inputs = s.inputs ∧ (applyPhase i c s).tables = s.tables ∧ (applyPhase i c s).matrix = s.matrix
    ∧ (applyPhase i c s).claims = s.claims ∧ (applyPhase i c s).results = s.results ∧ (applyPhase i c s).lanes = s.lanes
    ∧ (applyPhase i c s).taps = s.taps ∧ (applyPhase i c s).counters = s.counters ∧ (applyPhase i c s).trunk = s.trunk
    ∧ (applyPhase i c s).protection = s.protection ∧ (applyPhase i c s).freeCount = s.freeCount
    ∧ (applyPhase i c s).due = s.due ∧ (applyPhase i c s).pending = s.pending := by
  refine ⟨?_, ?_, ?_, ?_, ?_, ?_, ?_, ?_, ?_, ?_, ?_, ?_, ?_⟩ <;>
    (unfold applyPhase; (repeat' split) <;> simp)

@[simp] theorem trigger_keeps (i : Site) (c : StepContext) (l : LaneId) (s : State) :
    (trigger i c l s).inputs = s.inputs ∧ (trigger i c l s).tables = s.tables ∧ (trigger i c l s).matrix = s.matrix
    ∧ (trigger i c l s).engine = s.engine ∧ (trigger i c l s).claims = s.claims ∧ (trigger i c l s).results = s.results
    ∧ (trigger i c l s).taps = s.taps ∧ (trigger i c l s).protection = s.protection
    ∧ (trigger i c l s).freeCount = s.freeCount ∧ (trigger i c l s).due = s.due ∧ (trigger i c l s).pending = s.pending := by
  refine ⟨?_, ?_, ?_, ?_, ?_, ?_, ?_, ?_, ?_, ?_, ?_⟩ <;>
    (unfold trigger; (repeat' split) <;> simp)

@[simp] theorem triggerPhase_keeps (i : Site) (c : StepContext) (s : State) :
    (triggerPhase i c s).inputs = s.inputs ∧ (triggerPhase i c s).tables = s.tables ∧ (triggerPhase i c s).matrix = s.matrix
    ∧ (triggerPhase i c s).engine = s.engine ∧ (triggerPhase i c s).claims = s.claims
    ∧ (triggerPhase i c s).results = s.results ∧ (triggerPhase i c s).taps = s.taps
    ∧ (triggerPhase i c s).protection = s.protection ∧ (triggerPhase i c s).freeCount = s.freeCount
    ∧ (triggerPhase i c s).due = s.due ∧ (triggerPhase i c s).pending = s.pending := by
  refine ⟨?_, ?_, ?_, ?_, ?_, ?_, ?_, ?_, ?_, ?_, ?_⟩ <;>
    (unfold triggerPhase; (repeat' split) <;> simp)

@[simp] theorem judgePhase_keeps (i : Site) (c : StepContext) (s : State) :
    (judgePhase i c s).inputs = s.inputs ∧ (judgePhase i c s).tables = s.tables ∧ (judgePhase i c s).matrix = s.matrix
    ∧ (judgePhase i c s).engine = s.engine ∧ (judgePhase i c s).claims = s.claims ∧ (judgePhase i c s).lanes = s.lanes
    ∧ (judgePhase i c s).taps = s.taps ∧ (judgePhase i c s).counters = s.counters ∧ (judgePhase i c s).trunk = s.trunk
    ∧ (judgePhase i c s).protection = s.protection ∧ (judgePhase i c s).freeCount = s.freeCount
    ∧ (judgePhase i c s).due = s.due ∧ (judgePhase i c s).pending = s.pending := by
  refine ⟨?_, ?_, ?_, ?_, ?_, ?_, ?_, ?_, ?_, ?_, ?_, ?_, ?_⟩ <;>
    (unfold judgePhase; (repeat' split) <;> simp)

@[simp] theorem siteAct_keeps (i : Site) (s : State) :
    (siteAct i s).inputs = s.inputs ∧ (siteAct i s).tables = s.tables ∧ (siteAct i s).matrix = s.matrix
    ∧ (siteAct i s).taps = s.taps ∧ (siteAct i s).protection = s.protection ∧ (siteAct i s).freeCount = s.freeCount
    ∧ (siteAct i s).due = s.due ∧ (siteAct i s).pending = s.pending := by
  refine ⟨?_, ?_, ?_, ?_, ?_, ?_, ?_, ?_⟩ <;>
    (unfold siteAct; (repeat' split) <;> simp)

@[simp] theorem appendSamples_keeps (i : Site) (l : List Sample) (s : State) :
    (appendSamples i l s).inputs = s.inputs ∧ (appendSamples i l s).tables = s.tables
    ∧ (appendSamples i l s).matrix = s.matrix ∧ (appendSamples i l s).engine = s.engine
    ∧ (appendSamples i l s).claims = s.claims ∧ (appendSamples i l s).results = s.results
    ∧ (appendSamples i l s).lanes = s.lanes ∧ (appendSamples i l s).taps = s.taps
    ∧ (appendSamples i l s).counters = s.counters ∧ (appendSamples i l s).trunk = s.trunk
    ∧ (appendSamples i l s).protection = s.protection ∧ (appendSamples i l s).freeCount = s.freeCount
    ∧ (appendSamples i l s).due = s.due ∧ (appendSamples i l s).pending = s.pending := by
  refine ⟨?_, ?_, ?_, ?_, ?_, ?_, ?_, ?_, ?_, ?_, ?_, ?_, ?_, ?_⟩ <;>
    (unfold appendSamples; dsimp only; (repeat' split) <;> simp)

@[simp] theorem sendCancel_keeps (c : StepContext) (s : State) :
    (sendCancel c s).inputs = s.inputs ∧ (sendCancel c s).tables = s.tables ∧ (sendCancel c s).matrix = s.matrix
    ∧ (sendCancel c s).engine = s.engine ∧ (sendCancel c s).claims = s.claims ∧ (sendCancel c s).runs = s.runs
    ∧ (sendCancel c s).results = s.results ∧ (sendCancel c s).taps = s.taps ∧ (sendCancel c s).protection = s.protection
    ∧ (sendCancel c s).freeCount = s.freeCount ∧ (sendCancel c s).due = s.due ∧ (sendCancel c s).pending = s.pending := by
  refine ⟨?_, ?_, ?_, ?_, ?_, ?_, ?_, ?_, ?_, ?_, ?_, ?_⟩ <;>
    (unfold sendCancel; (repeat' split) <;> simp)

@[simp] theorem collectExpired_keeps (i : Site) (c : StepContext) (s : State) :
    (collectExpired i c s).inputs = s.inputs ∧ (collectExpired i c s).tables = s.tables
    ∧ (collectExpired i c s).matrix = s.matrix ∧ (collectExpired i c s).engine = s.engine
    ∧ (collectExpired i c s).claims = s.claims ∧ (collectExpired i c s).results = s.results
    ∧ (collectExpired i c s).taps = s.taps ∧ (collectExpired i c s).protection = s.protection
    ∧ (collectExpired i c s).freeCount = s.freeCount ∧ (collectExpired i c s).due = s.due
    ∧ (collectExpired i c s).pending = s.pending := by
  refine ⟨?_, ?_, ?_, ?_, ?_, ?_, ?_, ?_, ?_, ?_, ?_⟩ <;>
    (unfold collectExpired; dsimp only; (repeat' split) <;> simp)

@[simp] theorem failCollecting_keeps (l : LaneId) (s : State) :
    (failCollecting l s).inputs = s.inputs ∧ (failCollecting l s).tables = s.tables ∧ (failCollecting l s).matrix = s.matrix
    ∧ (failCollecting l s).engine = s.engine ∧ (failCollecting l s).claims = s.claims
    ∧ (failCollecting l s).results = s.results ∧ (failCollecting l s).lanes = s.lanes ∧ (failCollecting l s).taps = s.taps
    ∧ (failCollecting l s).counters = s.counters ∧ (failCollecting l s).trunk = s.trunk
    ∧ (failCollecting l s).protection = s.protection ∧ (failCollecting l s).freeCount = s.freeCount
    ∧ (failCollecting l s).due = s.due ∧ (failCollecting l s).pending = s.pending := by
  unfold failCollecting
  exact ⟨foldl_keeps (fun s => s.inputs) _ (fun s a => by (repeat' split) <;> simp) _ _,
    foldl_keeps (fun s => s.tables) _ (fun s a => by (repeat' split) <;> simp) _ _,
    foldl_keeps (fun s => s.matrix) _ (fun s a => by (repeat' split) <;> simp) _ _,
    foldl_keeps (fun s => s.engine) _ (fun s a => by (repeat' split) <;> simp) _ _,
    foldl_keeps (fun s => s.claims) _ (fun s a => by (repeat' split) <;> simp) _ _,
    foldl_keeps (fun s => s.results) _ (fun s a => by (repeat' split) <;> simp) _ _,
    foldl_keeps (fun s => s.lanes) _ (fun s a => by (repeat' split) <;> simp) _ _,
    foldl_keeps (fun s => s.taps) _ (fun s a => by (repeat' split) <;> simp) _ _,
    foldl_keeps (fun s => s.counters) _ (fun s a => by (repeat' split) <;> simp) _ _,
    foldl_keeps (fun s => s.trunk) _ (fun s a => by (repeat' split) <;> simp) _ _,
    foldl_keeps (fun s => s.protection) _ (fun s a => by (repeat' split) <;> simp) _ _,
    foldl_keeps (fun s => s.freeCount) _ (fun s a => by (repeat' split) <;> simp) _ _,
    foldl_keeps (fun s => s.due) _ (fun s a => by (repeat' split) <;> simp) _ _,
    foldl_keeps (fun s => s.pending) _ (fun s a => by (repeat' split) <;> simp) _ _⟩

@[simp] theorem tellCompletion_keeps (k : FlightKind) (c : Bool) (n : Nat) (s : State) :
    (tellCompletion k c n s).inputs = s.inputs ∧ (tellCompletion k c n s).tables = s.tables
    ∧ (tellCompletion k c n s).matrix = s.matrix ∧ (tellCompletion k c n s).engine = s.engine
    ∧ (tellCompletion k c n s).claims = s.claims ∧ (tellCompletion k c n s).results = s.results
    ∧ (tellCompletion k c n s).lanes = s.lanes ∧ (tellCompletion k c n s).taps = s.taps
    ∧ (tellCompletion k c n s).counters = s.counters ∧ (tellCompletion k c n s).freeCount = s.freeCount
    ∧ (tellCompletion k c n s).due = s.due ∧ (tellCompletion k c n s).pending = s.pending := by
  refine ⟨?_, ?_, ?_, ?_, ?_, ?_, ?_, ?_, ?_, ?_, ?_, ?_⟩ <;>
    (unfold tellCompletion; (repeat' split) <;> simp)

@[simp] theorem completeFlight_keeps (t : Transition) (s : State) :
    (completeFlight t s).inputs = s.inputs ∧ (completeFlight t s).tables = s.tables ∧ (completeFlight t s).matrix = s.matrix
    ∧ (completeFlight t s).claims = s.claims ∧ (completeFlight t s).results = s.results
    ∧ (completeFlight t s).lanes = s.lanes ∧ (completeFlight t s).taps = s.taps ∧ (completeFlight t s).counters = s.counters
    ∧ (completeFlight t s).freeCount = s.freeCount ∧ (completeFlight t s).due = s.due
    ∧ (completeFlight t s).pending = s.pending := by
  refine ⟨?_, ?_, ?_, ?_, ?_, ?_, ?_, ?_, ?_, ?_, ?_⟩ <;>
    (unfold completeFlight; (repeat' split) <;> simp)

@[simp] theorem setImage_keeps (x : Crosspoints) (s : State) :
    (setImage x s).inputs = s.inputs ∧ (setImage x s).tables = s.tables ∧ (setImage x s).engine = s.engine
    ∧ (setImage x s).claims = s.claims ∧ (setImage x s).runs = s.runs ∧ (setImage x s).results = s.results
    ∧ (setImage x s).lanes = s.lanes ∧ (setImage x s).taps = s.taps ∧ (setImage x s).counters = s.counters
    ∧ (setImage x s).trunk = s.trunk ∧ (setImage x s).protection = s.protection ∧ (setImage x s).freeCount = s.freeCount
    ∧ (setImage x s).due = s.due ∧ (setImage x s).pending = s.pending := by
  simp [setImage]

@[simp] theorem startMake_keeps (t : Transition) (s : State) :
    (startMake t s).inputs = s.inputs ∧ (startMake t s).tables = s.tables ∧ (startMake t s).claims = s.claims
    ∧ (startMake t s).results = s.results ∧ (startMake t s).lanes = s.lanes ∧ (startMake t s).taps = s.taps
    ∧ (startMake t s).counters = s.counters ∧ (startMake t s).freeCount = s.freeCount ∧ (startMake t s).due = s.due
    ∧ (startMake t s).pending = s.pending := by
  refine ⟨?_, ?_, ?_, ?_, ?_, ?_, ?_, ?_, ?_, ?_⟩ <;>
    (unfold startMake; dsimp only; (repeat' split) <;> simp)

@[simp] theorem startBreak_keeps (t : Transition) (s : State) :
    (startBreak t s).inputs = s.inputs ∧ (startBreak t s).tables = s.tables ∧ (startBreak t s).claims = s.claims
    ∧ (startBreak t s).results = s.results ∧ (startBreak t s).lanes = s.lanes ∧ (startBreak t s).taps = s.taps
    ∧ (startBreak t s).counters = s.counters ∧ (startBreak t s).freeCount = s.freeCount ∧ (startBreak t s).due = s.due
    ∧ (startBreak t s).pending = s.pending := by
  refine ⟨?_, ?_, ?_, ?_, ?_, ?_, ?_, ?_, ?_, ?_⟩ <;>
    (unfold startBreak; dsimp only; (repeat' split) <;> simp)

@[simp] theorem launch_keeps (k : FlightKind) (o c : Crosspoints) (s : State) :
    (launch k o c s).inputs = s.inputs ∧ (launch k o c s).tables = s.tables ∧ (launch k o c s).claims = s.claims
    ∧ (launch k o c s).results = s.results ∧ (launch k o c s).lanes = s.lanes ∧ (launch k o c s).taps = s.taps
    ∧ (launch k o c s).counters = s.counters ∧ (launch k o c s).freeCount = s.freeCount ∧ (launch k o c s).due = s.due
    ∧ (launch k o c s).pending = s.pending := by
  refine ⟨?_, ?_, ?_, ?_, ?_, ?_, ?_, ?_, ?_, ?_⟩ <;>
    (unfold launch; (repeat' split) <;> simp)

@[simp] theorem launchCopy_keeps (k : FlightKind) (x : Crosspoints) (s : State) :
    (launchCopy k x s).inputs = s.inputs ∧ (launchCopy k x s).tables = s.tables ∧ (launchCopy k x s).claims = s.claims
    ∧ (launchCopy k x s).results = s.results ∧ (launchCopy k x s).lanes = s.lanes ∧ (launchCopy k x s).taps = s.taps
    ∧ (launchCopy k x s).counters = s.counters ∧ (launchCopy k x s).freeCount = s.freeCount ∧ (launchCopy k x s).due = s.due
    ∧ (launchCopy k x s).pending = s.pending := by
  refine ⟨?_, ?_, ?_, ?_, ?_, ?_, ?_, ?_, ?_, ?_⟩ <;>
    (unfold launchCopy; (repeat' split) <;> simp)

@[simp] theorem beginCommit_keeps (c : Commit) (s : State) :
    (beginCommit c s).inputs = s.inputs ∧ (beginCommit c s).tables = s.tables ∧ (beginCommit c s).claims = s.claims
    ∧ (beginCommit c s).results = s.results ∧ (beginCommit c s).lanes = s.lanes ∧ (beginCommit c s).taps = s.taps
    ∧ (beginCommit c s).counters = s.counters ∧ (beginCommit c s).freeCount = s.freeCount ∧ (beginCommit c s).due = s.due
    ∧ (beginCommit c s).pending = s.pending := by
  refine ⟨?_, ?_, ?_, ?_, ?_, ?_, ?_, ?_, ?_, ?_⟩ <;>
    (unfold beginCommit; (repeat' split) <;> simp)

@[simp] theorem requireOpening_keeps (k : OpenKind) (s : State) :
    (requireOpening k s).inputs = s.inputs ∧ (requireOpening k s).tables = s.tables ∧ (requireOpening k s).matrix = s.matrix
    ∧ (requireOpening k s).claims = s.claims ∧ (requireOpening k s).runs = s.runs ∧ (requireOpening k s).results = s.results
    ∧ (requireOpening k s).lanes = s.lanes ∧ (requireOpening k s).taps = s.taps ∧ (requireOpening k s).counters = s.counters
    ∧ (requireOpening k s).trunk = s.trunk ∧ (requireOpening k s).protection = s.protection
    ∧ (requireOpening k s).freeCount = s.freeCount ∧ (requireOpening k s).due = s.due
    ∧ (requireOpening k s).pending = s.pending := by
  refine ⟨?_, ?_, ?_, ?_, ?_, ?_, ?_, ?_, ?_, ?_, ?_, ?_, ?_, ?_⟩ <;>
    (unfold requireOpening; (repeat' split) <;> simp)

@[simp] theorem setImage_matrix (x : Crosspoints) (s : State) :
    (setImage x s).matrix = { image := x, chain := x, drivers := x } := by
  simp [setImage]

@[simp] theorem engineAct_keeps  (s : State) :
    (engineAct s).inputs = s.inputs ∧ (engineAct s).tables = s.tables ∧ (engineAct s).claims = s.claims
    ∧ (engineAct s).results = s.results ∧ (engineAct s).lanes = s.lanes ∧ (engineAct s).taps = s.taps
    ∧ (engineAct s).counters = s.counters ∧ (engineAct s).freeCount = s.freeCount ∧ (engineAct s).due = s.due
    ∧ (engineAct s).pending = s.pending := by
  refine ⟨?_, ?_, ?_, ?_, ?_, ?_, ?_, ?_, ?_, ?_⟩ <;>
    (unfold engineAct; (repeat' split) <;> simp)

@[simp] theorem expireCommit_keeps (c : Commit) (s : State) :
    (expireCommit c s).inputs = s.inputs ∧ (expireCommit c s).tables = s.tables ∧ (expireCommit c s).matrix = s.matrix
    ∧ (expireCommit c s).engine = s.engine ∧ (expireCommit c s).claims = s.claims ∧ (expireCommit c s).results = s.results
    ∧ (expireCommit c s).lanes = s.lanes ∧ (expireCommit c s).taps = s.taps ∧ (expireCommit c s).counters = s.counters
    ∧ (expireCommit c s).protection = s.protection ∧ (expireCommit c s).freeCount = s.freeCount
    ∧ (expireCommit c s).due = s.due ∧ (expireCommit c s).pending = s.pending := by
  refine ⟨?_, ?_, ?_, ?_, ?_, ?_, ?_, ?_, ?_, ?_, ?_, ?_, ?_⟩ <;>
    (unfold expireCommit; (repeat' split) <;> simp)

@[simp] theorem lapseAct_keeps (s : State) :
    (lapseAct s).inputs = s.inputs ∧ (lapseAct s).tables = s.tables ∧ (lapseAct s).matrix = s.matrix
    ∧ (lapseAct s).claims = s.claims ∧ (lapseAct s).results = s.results ∧ (lapseAct s).lanes = s.lanes
    ∧ (lapseAct s).taps = s.taps ∧ (lapseAct s).counters = s.counters ∧ (lapseAct s).protection = s.protection
    ∧ (lapseAct s).freeCount = s.freeCount ∧ (lapseAct s).due = s.due ∧ (lapseAct s).pending = s.pending := by
  unfold lapseAct
  split <;> simp

@[simp] theorem removeAllCommits_keeps  (s : State) :
    (removeAllCommits s).inputs = s.inputs ∧ (removeAllCommits s).tables = s.tables ∧ (removeAllCommits s).matrix = s.matrix
    ∧ (removeAllCommits s).claims = s.claims ∧ (removeAllCommits s).runs = s.runs ∧ (removeAllCommits s).results = s.results
    ∧ (removeAllCommits s).lanes = s.lanes ∧ (removeAllCommits s).taps = s.taps ∧ (removeAllCommits s).counters = s.counters
    ∧ (removeAllCommits s).protection = s.protection ∧ (removeAllCommits s).due = s.due
    ∧ (removeAllCommits s).pending = s.pending := by
  unfold removeAllCommits
  exact ⟨(foldl_keeps (fun s => s.inputs) _ (fun s a => by simp) _ _).trans rfl,
    (foldl_keeps (fun s => s.tables) _ (fun s a => by simp) _ _).trans rfl,
    (foldl_keeps (fun s => s.matrix) _ (fun s a => by simp) _ _).trans rfl,
    (foldl_keeps (fun s => s.claims) _ (fun s a => by simp) _ _).trans rfl,
    (foldl_keeps (fun s => s.runs) _ (fun s a => by simp) _ _).trans rfl,
    (foldl_keeps (fun s => s.results) _ (fun s a => by simp) _ _).trans rfl,
    (foldl_keeps (fun s => s.lanes) _ (fun s a => by simp) _ _).trans rfl,
    (foldl_keeps (fun s => s.taps) _ (fun s a => by simp) _ _).trans rfl,
    (foldl_keeps (fun s => s.counters) _ (fun s a => by simp) _ _).trans rfl,
    (foldl_keeps (fun s => s.protection) _ (fun s a => by simp) _ _).trans rfl,
    (foldl_keeps (fun s => s.due) _ (fun s a => by simp) _ _).trans rfl,
    (foldl_keeps (fun s => s.pending) _ (fun s a => by simp) _ _).trans rfl⟩

@[simp] theorem dropStepCommit_keeps (i : Site) (s : State) :
    (dropStepCommit i s).inputs = s.inputs ∧ (dropStepCommit i s).tables = s.tables ∧ (dropStepCommit i s).matrix = s.matrix
    ∧ (dropStepCommit i s).claims = s.claims ∧ (dropStepCommit i s).runs = s.runs ∧ (dropStepCommit i s).results = s.results
    ∧ (dropStepCommit i s).lanes = s.lanes ∧ (dropStepCommit i s).taps = s.taps ∧ (dropStepCommit i s).counters = s.counters
    ∧ (dropStepCommit i s).trunk = s.trunk ∧ (dropStepCommit i s).protection = s.protection
    ∧ (dropStepCommit i s).freeCount = s.freeCount ∧ (dropStepCommit i s).due = s.due
    ∧ (dropStepCommit i s).pending = s.pending := by
  refine ⟨?_, ?_, ?_, ?_, ?_, ?_, ?_, ?_, ?_, ?_, ?_, ?_, ?_, ?_⟩ <;>
    (rfl)

@[simp] theorem cutFlight_keeps  (s : State) :
    (cutFlight s).inputs = s.inputs ∧ (cutFlight s).tables = s.tables ∧ (cutFlight s).matrix = s.matrix
    ∧ (cutFlight s).claims = s.claims ∧ (cutFlight s).runs = s.runs ∧ (cutFlight s).results = s.results
    ∧ (cutFlight s).lanes = s.lanes ∧ (cutFlight s).taps = s.taps ∧ (cutFlight s).counters = s.counters
    ∧ (cutFlight s).trunk = s.trunk ∧ (cutFlight s).protection = s.protection ∧ (cutFlight s).freeCount = s.freeCount
    ∧ (cutFlight s).due = s.due ∧ (cutFlight s).pending = s.pending := by
  refine ⟨?_, ?_, ?_, ?_, ?_, ?_, ?_, ?_, ?_, ?_, ?_, ?_, ?_, ?_⟩ <;>
    (rfl)

@[simp] theorem endBreak_keeps (t : Transition) (s : State) :
    (endBreak t s).inputs = s.inputs ∧ (endBreak t s).tables = s.tables ∧ (endBreak t s).claims = s.claims
    ∧ (endBreak t s).results = s.results ∧ (endBreak t s).lanes = s.lanes ∧ (endBreak t s).taps = s.taps
    ∧ (endBreak t s).counters = s.counters ∧ (endBreak t s).freeCount = s.freeCount ∧ (endBreak t s).due = s.due
    ∧ (endBreak t s).pending = s.pending := by
  refine ⟨?_, ?_, ?_, ?_, ?_, ?_, ?_, ?_, ?_, ?_⟩ <;>
    (unfold endBreak; (repeat' split) <;> simp)

@[simp] theorem enterAligning_keeps (l : LaneId) (s : State) :
    (enterAligning l s).inputs = s.inputs ∧ (enterAligning l s).tables = s.tables ∧ (enterAligning l s).matrix = s.matrix
    ∧ (enterAligning l s).engine = s.engine ∧ (enterAligning l s).claims = s.claims ∧ (enterAligning l s).runs = s.runs
    ∧ (enterAligning l s).results = s.results ∧ (enterAligning l s).taps = s.taps
    ∧ (enterAligning l s).counters = s.counters ∧ (enterAligning l s).trunk = s.trunk
    ∧ (enterAligning l s).protection = s.protection ∧ (enterAligning l s).freeCount = s.freeCount
    ∧ (enterAligning l s).due = s.due ∧ (enterAligning l s).pending = s.pending := by
  refine ⟨?_, ?_, ?_, ?_, ?_, ?_, ?_, ?_, ?_, ?_, ?_, ?_, ?_, ?_⟩ <;>
    (rfl)

@[simp] theorem enterWaking_keeps (l : LaneId) (n : Nat) (s : State) :
    (enterWaking l n s).inputs = s.inputs ∧ (enterWaking l n s).tables = s.tables ∧ (enterWaking l n s).matrix = s.matrix
    ∧ (enterWaking l n s).engine = s.engine ∧ (enterWaking l n s).claims = s.claims ∧ (enterWaking l n s).runs = s.runs
    ∧ (enterWaking l n s).results = s.results ∧ (enterWaking l n s).taps = s.taps
    ∧ (enterWaking l n s).counters = s.counters ∧ (enterWaking l n s).trunk = s.trunk
    ∧ (enterWaking l n s).protection = s.protection ∧ (enterWaking l n s).freeCount = s.freeCount
    ∧ (enterWaking l n s).due = s.due ∧ (enterWaking l n s).pending = s.pending := by
  refine ⟨?_, ?_, ?_, ?_, ?_, ?_, ?_, ?_, ?_, ?_, ?_, ?_, ?_, ?_⟩ <;>
    (unfold enterWaking; dsimp only; (repeat' split) <;> simp)

@[simp] theorem enterUp_keeps (l : LaneId) (s : State) :
    (enterUp l s).inputs = s.inputs ∧ (enterUp l s).tables = s.tables ∧ (enterUp l s).matrix = s.matrix
    ∧ (enterUp l s).engine = s.engine ∧ (enterUp l s).claims = s.claims ∧ (enterUp l s).runs = s.runs
    ∧ (enterUp l s).results = s.results ∧ (enterUp l s).taps = s.taps ∧ (enterUp l s).counters = s.counters
    ∧ (enterUp l s).protection = s.protection ∧ (enterUp l s).freeCount = s.freeCount ∧ (enterUp l s).due = s.due
    ∧ (enterUp l s).pending = s.pending := by
  refine ⟨?_, ?_, ?_, ?_, ?_, ?_, ?_, ?_, ?_, ?_, ?_, ?_, ?_⟩ <;>
    (unfold enterUp; (repeat' split) <;> simp)

@[simp] theorem enterRetryWait_keeps (l : LaneId) (n : Nat) (s : State) :
    (enterRetryWait l n s).inputs = s.inputs ∧ (enterRetryWait l n s).tables = s.tables
    ∧ (enterRetryWait l n s).matrix = s.matrix ∧ (enterRetryWait l n s).engine = s.engine
    ∧ (enterRetryWait l n s).claims = s.claims ∧ (enterRetryWait l n s).runs = s.runs
    ∧ (enterRetryWait l n s).results = s.results ∧ (enterRetryWait l n s).taps = s.taps
    ∧ (enterRetryWait l n s).counters = s.counters ∧ (enterRetryWait l n s).trunk = s.trunk
    ∧ (enterRetryWait l n s).protection = s.protection ∧ (enterRetryWait l n s).freeCount = s.freeCount
    ∧ (enterRetryWait l n s).due = s.due ∧ (enterRetryWait l n s).pending = s.pending := by
  refine ⟨?_, ?_, ?_, ?_, ?_, ?_, ?_, ?_, ?_, ?_, ?_, ?_, ?_, ?_⟩ <;>
    (rfl)

@[simp] theorem failAttempt_keeps (l : LaneId) (s : State) :
    (failAttempt l s).inputs = s.inputs ∧ (failAttempt l s).tables = s.tables ∧ (failAttempt l s).matrix = s.matrix
    ∧ (failAttempt l s).engine = s.engine ∧ (failAttempt l s).claims = s.claims ∧ (failAttempt l s).runs = s.runs
    ∧ (failAttempt l s).results = s.results ∧ (failAttempt l s).taps = s.taps ∧ (failAttempt l s).counters = s.counters
    ∧ (failAttempt l s).protection = s.protection ∧ (failAttempt l s).freeCount = s.freeCount
    ∧ (failAttempt l s).due = s.due ∧ (failAttempt l s).pending = s.pending := by
  refine ⟨?_, ?_, ?_, ?_, ?_, ?_, ?_, ?_, ?_, ?_, ?_, ?_, ?_⟩ <;>
    (unfold failAttempt; dsimp only; (repeat' split) <;> simp)

@[simp] theorem setOutputs_keeps (l : LaneId) (f : Fin 8 → Output → Output) (s : State) :
    (setOutputs l f s).inputs = s.inputs ∧ (setOutputs l f s).matrix = s.matrix ∧ (setOutputs l f s).engine = s.engine
    ∧ (setOutputs l f s).claims = s.claims ∧ (setOutputs l f s).runs = s.runs ∧ (setOutputs l f s).results = s.results
    ∧ (setOutputs l f s).lanes = s.lanes ∧ (setOutputs l f s).taps = s.taps ∧ (setOutputs l f s).counters = s.counters
    ∧ (setOutputs l f s).trunk = s.trunk ∧ (setOutputs l f s).protection = s.protection
    ∧ (setOutputs l f s).freeCount = s.freeCount ∧ (setOutputs l f s).due = s.due ∧ (setOutputs l f s).pending = s.pending := by
  refine ⟨?_, ?_, ?_, ?_, ?_, ?_, ?_, ?_, ?_, ?_, ?_, ?_, ?_, ?_⟩ <;>
    (rfl)

@[simp] theorem foldl_bounce_keeps (r : BounceReason) (fs : List Frame) (s : State) :
    (fs.foldl (fun s f => bounce r f s) s).inputs = s.inputs ∧ (fs.foldl (fun s f => bounce r f s) s).tables = s.tables
    ∧ (fs.foldl (fun s f => bounce r f s) s).matrix = s.matrix ∧ (fs.foldl (fun s f => bounce r f s) s).engine = s.engine
    ∧ (fs.foldl (fun s f => bounce r f s) s).claims = s.claims ∧ (fs.foldl (fun s f => bounce r f s) s).runs = s.runs
    ∧ (fs.foldl (fun s f => bounce r f s) s).results = s.results ∧ (fs.foldl (fun s f => bounce r f s) s).lanes = s.lanes
    ∧ (fs.foldl (fun s f => bounce r f s) s).taps = s.taps
    ∧ (fs.foldl (fun s f => bounce r f s) s).protection = s.protection
    ∧ (fs.foldl (fun s f => bounce r f s) s).freeCount = s.freeCount ∧ (fs.foldl (fun s f => bounce r f s) s).due = s.due
    ∧ (fs.foldl (fun s f => bounce r f s) s).pending = s.pending := by
  exact ⟨foldl_keeps (fun s => s.inputs) _ (fun s a => by simp) _ _,
    foldl_keeps (fun s => s.tables) _ (fun s a => by simp) _ _,
    foldl_keeps (fun s => s.matrix) _ (fun s a => by simp) _ _,
    foldl_keeps (fun s => s.engine) _ (fun s a => by simp) _ _,
    foldl_keeps (fun s => s.claims) _ (fun s a => by simp) _ _,
    foldl_keeps (fun s => s.runs) _ (fun s a => by simp) _ _,
    foldl_keeps (fun s => s.results) _ (fun s a => by simp) _ _,
    foldl_keeps (fun s => s.lanes) _ (fun s a => by simp) _ _,
    foldl_keeps (fun s => s.taps) _ (fun s a => by simp) _ _,
    foldl_keeps (fun s => s.protection) _ (fun s a => by simp) _ _,
    foldl_keeps (fun s => s.freeCount) _ (fun s a => by simp) _ _,
    foldl_keeps (fun s => s.due) _ (fun s a => by simp) _ _,
    foldl_keeps (fun s => s.pending) _ (fun s a => by simp) _ _⟩

@[simp] theorem leaveUp_keeps (l : LaneId) (s : State) :
    (leaveUp l s).inputs = s.inputs ∧ (leaveUp l s).matrix = s.matrix ∧ (leaveUp l s).engine = s.engine
    ∧ (leaveUp l s).claims = s.claims ∧ (leaveUp l s).results = s.results ∧ (leaveUp l s).taps = s.taps
    ∧ (leaveUp l s).protection = s.protection ∧ (leaveUp l s).due = s.due ∧ (leaveUp l s).pending = s.pending := by
  refine ⟨?_, ?_, ?_, ?_, ?_, ?_, ?_, ?_, ?_⟩ <;>
    (unfold leaveUp; simp)

@[simp] theorem enterLost_keeps (l : LaneId) (e : Option (Tag × Fin 8)) (s : State) :
    (enterLost l e s).inputs = s.inputs ∧ (enterLost l e s).matrix = s.matrix ∧ (enterLost l e s).engine = s.engine
    ∧ (enterLost l e s).claims = s.claims ∧ (enterLost l e s).results = s.results ∧ (enterLost l e s).taps = s.taps
    ∧ (enterLost l e s).protection = s.protection ∧ (enterLost l e s).pending = s.pending := by
  refine ⟨?_, ?_, ?_, ?_, ?_, ?_, ?_, ?_⟩ <;>
    (unfold enterLost; (repeat' split) <;> simp)

@[simp] theorem enterDraining_keeps (l : LaneId) (s : State) :
    (enterDraining l s).inputs = s.inputs ∧ (enterDraining l s).matrix = s.matrix ∧ (enterDraining l s).engine = s.engine
    ∧ (enterDraining l s).claims = s.claims ∧ (enterDraining l s).results = s.results ∧ (enterDraining l s).taps = s.taps
    ∧ (enterDraining l s).protection = s.protection ∧ (enterDraining l s).due = s.due
    ∧ (enterDraining l s).pending = s.pending := by
  refine ⟨?_, ?_, ?_, ?_, ?_, ?_, ?_, ?_, ?_⟩ <;>
    (unfold enterDraining; dsimp only; (repeat' split) <;> simp)

@[simp] theorem enterLoop_keeps (l : LaneId) (s : State) :
    (enterLoop l s).inputs = s.inputs ∧ (enterLoop l s).tables = s.tables ∧ (enterLoop l s).matrix = s.matrix
    ∧ (enterLoop l s).engine = s.engine ∧ (enterLoop l s).claims = s.claims ∧ (enterLoop l s).runs = s.runs
    ∧ (enterLoop l s).results = s.results ∧ (enterLoop l s).taps = s.taps ∧ (enterLoop l s).counters = s.counters
    ∧ (enterLoop l s).trunk = s.trunk ∧ (enterLoop l s).protection = s.protection ∧ (enterLoop l s).freeCount = s.freeCount
    ∧ (enterLoop l s).due = s.due ∧ (enterLoop l s).pending = s.pending := by
  refine ⟨?_, ?_, ?_, ?_, ?_, ?_, ?_, ?_, ?_, ?_, ?_, ?_, ?_, ?_⟩ <;>
    (rfl)

@[simp] theorem actOnSettings_keeps (l : LaneId) (s : State) :
    (actOnSettings l s).inputs = s.inputs ∧ (actOnSettings l s).tables = s.tables ∧ (actOnSettings l s).matrix = s.matrix
    ∧ (actOnSettings l s).engine = s.engine ∧ (actOnSettings l s).claims = s.claims ∧ (actOnSettings l s).runs = s.runs
    ∧ (actOnSettings l s).results = s.results ∧ (actOnSettings l s).taps = s.taps
    ∧ (actOnSettings l s).counters = s.counters ∧ (actOnSettings l s).trunk = s.trunk
    ∧ (actOnSettings l s).protection = s.protection ∧ (actOnSettings l s).freeCount = s.freeCount
    ∧ (actOnSettings l s).due = s.due ∧ (actOnSettings l s).pending = s.pending := by
  refine ⟨?_, ?_, ?_, ?_, ?_, ?_, ?_, ?_, ?_, ?_, ?_, ?_, ?_, ?_⟩ <;>
    (unfold actOnSettings; (repeat' split) <;> simp)

@[simp] theorem enterOff_keeps (l : LaneId) (es : List Event) (s : State) :
    (enterOff l es s).inputs = s.inputs ∧ (enterOff l es s).tables = s.tables ∧ (enterOff l es s).matrix = s.matrix
    ∧ (enterOff l es s).engine = s.engine ∧ (enterOff l es s).claims = s.claims ∧ (enterOff l es s).runs = s.runs
    ∧ (enterOff l es s).results = s.results ∧ (enterOff l es s).taps = s.taps ∧ (enterOff l es s).counters = s.counters
    ∧ (enterOff l es s).protection = s.protection ∧ (enterOff l es s).due = s.due ∧ (enterOff l es s).pending = s.pending := by
  refine ⟨?_, ?_, ?_, ?_, ?_, ?_, ?_, ?_, ?_, ?_, ?_, ?_⟩ <;>
    (unfold enterOff; (repeat' split) <;> simp)

@[simp] theorem endDraining_keeps (l : LaneId) (s : State) :
    (endDraining l s).inputs = s.inputs ∧ (endDraining l s).tables = s.tables ∧ (endDraining l s).matrix = s.matrix
    ∧ (endDraining l s).engine = s.engine ∧ (endDraining l s).claims = s.claims ∧ (endDraining l s).runs = s.runs
    ∧ (endDraining l s).results = s.results ∧ (endDraining l s).taps = s.taps ∧ (endDraining l s).counters = s.counters
    ∧ (endDraining l s).protection = s.protection ∧ (endDraining l s).due = s.due ∧ (endDraining l s).pending = s.pending := by
  refine ⟨?_, ?_, ?_, ?_, ?_, ?_, ?_, ?_, ?_, ?_, ?_, ?_⟩ <;>
    (unfold endDraining; (repeat' split) <;> simp)

@[simp] theorem setLane_keeps (l : LaneId) (d b : Bool) (s : State) :
    (setLane l d b s).inputs = s.inputs ∧ (setLane l d b s).matrix = s.matrix ∧ (setLane l d b s).engine = s.engine
    ∧ (setLane l d b s).claims = s.claims ∧ (setLane l d b s).results = s.results ∧ (setLane l d b s).taps = s.taps
    ∧ (setLane l d b s).protection = s.protection ∧ (setLane l d b s).due = s.due ∧ (setLane l d b s).pending = s.pending := by
  refine ⟨?_, ?_, ?_, ?_, ?_, ?_, ?_, ?_, ?_⟩ <;>
    (unfold setLane; dsimp only; (repeat' split) <;> simp)

@[simp] theorem cardChanged_keeps (l : LaneId) (c : CardCondition) (s : State) :
    (cardChanged l c s).inputs = s.inputs ∧ (cardChanged l c s).matrix = s.matrix ∧ (cardChanged l c s).engine = s.engine
    ∧ (cardChanged l c s).claims = s.claims ∧ (cardChanged l c s).results = s.results ∧ (cardChanged l c s).taps = s.taps
    ∧ (cardChanged l c s).protection = s.protection ∧ (cardChanged l c s).pending = s.pending := by
  refine ⟨?_, ?_, ?_, ?_, ?_, ?_, ?_, ?_⟩ <;>
    (unfold cardChanged; dsimp only; (repeat' split) <;> simp)

@[simp] theorem countAligning_keeps (l : LaneId) (g : Bool) (s : State) :
    (countAligning l g s).inputs = s.inputs ∧ (countAligning l g s).tables = s.tables
    ∧ (countAligning l g s).matrix = s.matrix ∧ (countAligning l g s).engine = s.engine
    ∧ (countAligning l g s).claims = s.claims ∧ (countAligning l g s).runs = s.runs
    ∧ (countAligning l g s).results = s.results ∧ (countAligning l g s).taps = s.taps
    ∧ (countAligning l g s).counters = s.counters ∧ (countAligning l g s).protection = s.protection
    ∧ (countAligning l g s).freeCount = s.freeCount ∧ (countAligning l g s).due = s.due
    ∧ (countAligning l g s).pending = s.pending := by
  refine ⟨?_, ?_, ?_, ?_, ?_, ?_, ?_, ?_, ?_, ?_, ?_, ?_, ?_⟩ <;>
    (unfold countAligning; dsimp only; (repeat' split) <;> simp)

@[simp] theorem countLoop_keeps (l : LaneId) (g : Bool) (s : State) :
    (countLoop l g s).inputs = s.inputs ∧ (countLoop l g s).tables = s.tables ∧ (countLoop l g s).matrix = s.matrix
    ∧ (countLoop l g s).engine = s.engine ∧ (countLoop l g s).claims = s.claims ∧ (countLoop l g s).runs = s.runs
    ∧ (countLoop l g s).results = s.results ∧ (countLoop l g s).taps = s.taps ∧ (countLoop l g s).counters = s.counters
    ∧ (countLoop l g s).trunk = s.trunk ∧ (countLoop l g s).protection = s.protection
    ∧ (countLoop l g s).freeCount = s.freeCount ∧ (countLoop l g s).due = s.due ∧ (countLoop l g s).pending = s.pending := by
  refine ⟨?_, ?_, ?_, ?_, ?_, ?_, ?_, ?_, ?_, ?_, ?_, ?_, ?_, ?_⟩ <;>
    (rfl)

@[simp] theorem countBadUp_keeps (l : LaneId) (s : State) :
    (countBadUp l s).inputs = s.inputs ∧ (countBadUp l s).matrix = s.matrix ∧ (countBadUp l s).engine = s.engine
    ∧ (countBadUp l s).claims = s.claims ∧ (countBadUp l s).results = s.results ∧ (countBadUp l s).taps = s.taps
    ∧ (countBadUp l s).protection = s.protection ∧ (countBadUp l s).pending = s.pending := by
  refine ⟨?_, ?_, ?_, ?_, ?_, ?_, ?_, ?_⟩ <;>
    (unfold countBadUp; dsimp only; (repeat' split) <;> simp)

@[simp] theorem sendNext_keeps (l : LaneId) (s : State) :
    (sendNext l s).inputs = s.inputs ∧ (sendNext l s).tables = s.tables ∧ (sendNext l s).matrix = s.matrix
    ∧ (sendNext l s).engine = s.engine ∧ (sendNext l s).claims = s.claims ∧ (sendNext l s).runs = s.runs
    ∧ (sendNext l s).results = s.results ∧ (sendNext l s).taps = s.taps ∧ (sendNext l s).counters = s.counters
    ∧ (sendNext l s).trunk = s.trunk ∧ (sendNext l s).protection = s.protection ∧ (sendNext l s).freeCount = s.freeCount
    ∧ (sendNext l s).due = s.due ∧ (sendNext l s).pending = s.pending := by
  refine ⟨?_, ?_, ?_, ?_, ?_, ?_, ?_, ?_, ?_, ?_, ?_, ?_, ?_, ?_⟩ <;>
    (unfold sendNext; dsimp only; (repeat' split) <;> rfl)

@[simp] theorem queueHost_keeps (l : LaneId) (f : Frame) (s : State) :
    (queueHost l f s).inputs = s.inputs ∧ (queueHost l f s).tables = s.tables ∧ (queueHost l f s).matrix = s.matrix
    ∧ (queueHost l f s).engine = s.engine ∧ (queueHost l f s).claims = s.claims ∧ (queueHost l f s).runs = s.runs
    ∧ (queueHost l f s).results = s.results ∧ (queueHost l f s).taps = s.taps ∧ (queueHost l f s).counters = s.counters
    ∧ (queueHost l f s).trunk = s.trunk ∧ (queueHost l f s).protection = s.protection
    ∧ (queueHost l f s).freeCount = s.freeCount ∧ (queueHost l f s).due = s.due ∧ (queueHost l f s).pending = s.pending := by
  refine ⟨?_, ?_, ?_, ?_, ?_, ?_, ?_, ?_, ?_, ?_, ?_, ?_, ?_, ?_⟩ <;>
    (rfl)

@[simp] theorem routeCommand_keeps (f : Frame) (s : State) :
    (routeCommand f s).inputs = s.inputs ∧ (routeCommand f s).tables = s.tables ∧ (routeCommand f s).matrix = s.matrix
    ∧ (routeCommand f s).engine = s.engine ∧ (routeCommand f s).claims = s.claims ∧ (routeCommand f s).runs = s.runs
    ∧ (routeCommand f s).results = s.results ∧ (routeCommand f s).taps = s.taps
    ∧ (routeCommand f s).protection = s.protection ∧ (routeCommand f s).freeCount = s.freeCount
    ∧ (routeCommand f s).due = s.due ∧ (routeCommand f s).pending = s.pending := by
  refine ⟨?_, ?_, ?_, ?_, ?_, ?_, ?_, ?_, ?_, ?_, ?_, ?_⟩ <;>
    (unfold routeCommand; (repeat' split) <;> simp)

@[simp] theorem broadcast_keeps (f : Frame) (s : State) :
    (broadcast f s).inputs = s.inputs ∧ (broadcast f s).tables = s.tables ∧ (broadcast f s).matrix = s.matrix
    ∧ (broadcast f s).engine = s.engine ∧ (broadcast f s).claims = s.claims ∧ (broadcast f s).runs = s.runs
    ∧ (broadcast f s).results = s.results ∧ (broadcast f s).taps = s.taps ∧ (broadcast f s).counters = s.counters
    ∧ (broadcast f s).trunk = s.trunk ∧ (broadcast f s).protection = s.protection ∧ (broadcast f s).freeCount = s.freeCount
    ∧ (broadcast f s).due = s.due ∧ (broadcast f s).pending = s.pending := by
  refine ⟨by unfold broadcast; split <;> [rfl; exact foldl_keeps (fun s => s.inputs) _ (fun s a => by split <;> simp) _ _],
    by unfold broadcast; split <;> [rfl; exact foldl_keeps (fun s => s.tables) _ (fun s a => by split <;> simp) _ _],
    by unfold broadcast; split <;> [rfl; exact foldl_keeps (fun s => s.matrix) _ (fun s a => by split <;> simp) _ _],
    by unfold broadcast; split <;> [rfl; exact foldl_keeps (fun s => s.engine) _ (fun s a => by split <;> simp) _ _],
    by unfold broadcast; split <;> [rfl; exact foldl_keeps (fun s => s.claims) _ (fun s a => by split <;> simp) _ _],
    by unfold broadcast; split <;> [rfl; exact foldl_keeps (fun s => s.runs) _ (fun s a => by split <;> simp) _ _],
    by unfold broadcast; split <;> [rfl; exact foldl_keeps (fun s => s.results) _ (fun s a => by split <;> simp) _ _],
    by unfold broadcast; split <;> [rfl; exact foldl_keeps (fun s => s.taps) _ (fun s a => by split <;> simp) _ _],
    by unfold broadcast; split <;> [rfl; exact foldl_keeps (fun s => s.counters) _ (fun s a => by split <;> simp) _ _],
    by unfold broadcast; split <;> [rfl; exact foldl_keeps (fun s => s.trunk) _ (fun s a => by split <;> simp) _ _],
    by unfold broadcast; split <;> [rfl; exact foldl_keeps (fun s => s.protection) _ (fun s a => by split <;> simp) _ _],
    by unfold broadcast; split <;> [rfl; exact foldl_keeps (fun s => s.freeCount) _ (fun s a => by split <;> simp) _ _],
    by unfold broadcast; split <;> [rfl; exact foldl_keeps (fun s => s.due) _ (fun s a => by split <;> simp) _ _],
    by unfold broadcast; split <;> [rfl; exact foldl_keeps (fun s => s.pending) _ (fun s a => by split <;> simp) _ _]⟩

@[simp] theorem drainAct_keeps  (s : State) :
    (drainAct s).inputs = s.inputs ∧ (drainAct s).tables = s.tables ∧ (drainAct s).matrix = s.matrix
    ∧ (drainAct s).engine = s.engine ∧ (drainAct s).claims = s.claims ∧ (drainAct s).runs = s.runs
    ∧ (drainAct s).results = s.results ∧ (drainAct s).taps = s.taps ∧ (drainAct s).protection = s.protection
    ∧ (drainAct s).freeCount = s.freeCount ∧ (drainAct s).due = s.due ∧ (drainAct s).pending = s.pending := by
  refine ⟨?_, ?_, ?_, ?_, ?_, ?_, ?_, ?_, ?_, ?_, ?_, ?_⟩ <;>
    (unfold drainAct; dsimp only; (repeat' split) <;> simp)

@[simp] theorem drainAll_keeps (n : Nat) (s : State) :
    (drainAll n s).inputs = s.inputs ∧ (drainAll n s).tables = s.tables ∧ (drainAll n s).matrix = s.matrix
    ∧ (drainAll n s).engine = s.engine ∧ (drainAll n s).claims = s.claims ∧ (drainAll n s).runs = s.runs
    ∧ (drainAll n s).results = s.results ∧ (drainAll n s).taps = s.taps ∧ (drainAll n s).protection = s.protection
    ∧ (drainAll n s).freeCount = s.freeCount ∧ (drainAll n s).due = s.due ∧ (drainAll n s).pending = s.pending := by
  induction n generalizing s with
  | zero => simp [drainAll]
  | succ n ih =>
    unfold drainAll
    split
    · simpa using ih (drainAct s)
    · simp

@[simp] theorem acceptFrame_keeps (f : Frame) (s : State) :
    (acceptFrame f s).inputs = s.inputs ∧ (acceptFrame f s).tables = s.tables ∧ (acceptFrame f s).matrix = s.matrix
    ∧ (acceptFrame f s).engine = s.engine ∧ (acceptFrame f s).claims = s.claims ∧ (acceptFrame f s).runs = s.runs
    ∧ (acceptFrame f s).results = s.results ∧ (acceptFrame f s).lanes = s.lanes ∧ (acceptFrame f s).taps = s.taps
    ∧ (acceptFrame f s).freeCount = s.freeCount ∧ (acceptFrame f s).due = s.due ∧ (acceptFrame f s).pending = s.pending := by
  refine ⟨?_, ?_, ?_, ?_, ?_, ?_, ?_, ?_, ?_, ?_, ?_, ?_⟩ <;>
    (unfold acceptFrame; dsimp only; (repeat' split) <;> simp)

@[simp] theorem receiveTrunk_keeps (bytes : List Byte) (s : State) :
    (receiveTrunk bytes s).inputs = s.inputs ∧ (receiveTrunk bytes s).tables = s.tables
    ∧ (receiveTrunk bytes s).matrix = s.matrix ∧ (receiveTrunk bytes s).engine = s.engine
    ∧ (receiveTrunk bytes s).claims = s.claims ∧ (receiveTrunk bytes s).runs = s.runs
    ∧ (receiveTrunk bytes s).results = s.results ∧ (receiveTrunk bytes s).lanes = s.lanes
    ∧ (receiveTrunk bytes s).taps = s.taps ∧ (receiveTrunk bytes s).freeCount = s.freeCount
    ∧ (receiveTrunk bytes s).due = s.due ∧ (receiveTrunk bytes s).pending = s.pending := by
  refine ⟨?_, ?_, ?_, ?_, ?_, ?_, ?_, ?_, ?_, ?_, ?_, ?_⟩ <;>
    (unfold receiveTrunk; (repeat' split) <;> simp)

@[simp] theorem passTaps_keeps (f : Frame) (w : Option (Site × StepId)) (s : State) :
    (passTaps f w s).inputs = s.inputs ∧ (passTaps f w s).tables = s.tables ∧ (passTaps f w s).matrix = s.matrix
    ∧ (passTaps f w s).engine = s.engine ∧ (passTaps f w s).claims = s.claims ∧ (passTaps f w s).runs = s.runs
    ∧ (passTaps f w s).results = s.results ∧ (passTaps f w s).lanes = s.lanes ∧ (passTaps f w s).counters = s.counters
    ∧ (passTaps f w s).protection = s.protection ∧ (passTaps f w s).due = s.due ∧ (passTaps f w s).pending = s.pending := by
  refine ⟨?_, ?_, ?_, ?_, ?_, ?_, ?_, ?_, ?_, ?_, ?_, ?_⟩ <;>
    (unfold passTaps; dsimp only; (repeat' split) <;> simp)

@[simp] theorem staleReading_keeps (f : Frame) (s : State) :
    (staleReading f s).inputs = s.inputs ∧ (staleReading f s).tables = s.tables ∧ (staleReading f s).matrix = s.matrix
    ∧ (staleReading f s).engine = s.engine ∧ (staleReading f s).claims = s.claims ∧ (staleReading f s).runs = s.runs
    ∧ (staleReading f s).results = s.results ∧ (staleReading f s).lanes = s.lanes
    ∧ (staleReading f s).protection = s.protection ∧ (staleReading f s).due = s.due
    ∧ (staleReading f s).pending = s.pending := by
  refine ⟨?_, ?_, ?_, ?_, ?_, ?_, ?_, ?_, ?_, ?_, ?_⟩ <;>
    (unfold staleReading; simp)

@[simp] theorem receiveReading_keeps (l : LaneId) (f : Frame) (s : State) :
    (receiveReading l f s).inputs = s.inputs ∧ (receiveReading l f s).tables = s.tables
    ∧ (receiveReading l f s).matrix = s.matrix ∧ (receiveReading l f s).engine = s.engine
    ∧ (receiveReading l f s).claims = s.claims ∧ (receiveReading l f s).results = s.results
    ∧ (receiveReading l f s).protection = s.protection ∧ (receiveReading l f s).due = s.due
    ∧ (receiveReading l f s).pending = s.pending := by
  refine ⟨?_, ?_, ?_, ?_, ?_, ?_, ?_, ?_, ?_⟩ <;>
    (unfold receiveReading; (repeat' split) <;> simp)

@[simp] theorem receiveStatus_keeps (l : LaneId) (f : Frame) (s : State) :
    (receiveStatus l f s).inputs = s.inputs ∧ (receiveStatus l f s).matrix = s.matrix
    ∧ (receiveStatus l f s).engine = s.engine ∧ (receiveStatus l f s).claims = s.claims
    ∧ (receiveStatus l f s).runs = s.runs ∧ (receiveStatus l f s).results = s.results
    ∧ (receiveStatus l f s).lanes = s.lanes ∧ (receiveStatus l f s).taps = s.taps
    ∧ (receiveStatus l f s).counters = s.counters ∧ (receiveStatus l f s).protection = s.protection
    ∧ (receiveStatus l f s).due = s.due ∧ (receiveStatus l f s).pending = s.pending := by
  refine ⟨?_, ?_, ?_, ?_, ?_, ?_, ?_, ?_, ?_, ?_, ?_, ?_⟩ <;>
    (unfold receiveStatus; dsimp only; (repeat' split) <;> simp)

@[simp] theorem receiveInstrument_keeps (l : LaneId) (f : Frame) (s : State) :
    (receiveInstrument l f s).inputs = s.inputs ∧ (receiveInstrument l f s).matrix = s.matrix
    ∧ (receiveInstrument l f s).engine = s.engine ∧ (receiveInstrument l f s).claims = s.claims
    ∧ (receiveInstrument l f s).results = s.results ∧ (receiveInstrument l f s).protection = s.protection
    ∧ (receiveInstrument l f s).due = s.due ∧ (receiveInstrument l f s).pending = s.pending := by
  refine ⟨?_, ?_, ?_, ?_, ?_, ?_, ?_, ?_⟩ <;>
    (unfold receiveInstrument; (repeat' split) <;> simp)

@[simp] theorem receiveDeparted_keeps (l : LaneId) (f : Option Frame) (s : State) :
    (receiveDeparted l f s).inputs = s.inputs ∧ (receiveDeparted l f s).tables = s.tables
    ∧ (receiveDeparted l f s).matrix = s.matrix ∧ (receiveDeparted l f s).engine = s.engine
    ∧ (receiveDeparted l f s).claims = s.claims ∧ (receiveDeparted l f s).runs = s.runs
    ∧ (receiveDeparted l f s).results = s.results ∧ (receiveDeparted l f s).protection = s.protection
    ∧ (receiveDeparted l f s).due = s.due ∧ (receiveDeparted l f s).pending = s.pending := by
  refine ⟨?_, ?_, ?_, ?_, ?_, ?_, ?_, ?_, ?_, ?_⟩ <;>
    (unfold receiveDeparted; dsimp only; (repeat' split) <;> simp)

/-- A frame that meets no departure is only discarded (spec R133 b). -/
theorem receiveDeparted_other (l : LaneId) (f : Option Frame) (s : State) (h : ∀ x, f = some x → meetsDeparture s l x = false) :
    receiveDeparted l f s = s.onLane l fun x => { x with leftStep := none } := by
  unfold receiveDeparted
  cases f with
  | none => rfl
  | some x => simp [h x rfl]

/-- A frame that meets the departure is discarded, or is stale (spec R133 b, R90 b; log 30). -/
theorem receiveDeparted_meets (l : LaneId) (f : Frame) (s : State) (h : meetsDeparture s l f = true) :
    ∃ n : Nat,
      let t := { s.onLane l fun x => { x with leftStep := none } with freeCount := n }
      receiveDeparted l (some f) s = t ∨ receiveDeparted l (some f) s = staleReading f t := by
  refine ⟨(freePick false [true] s.freeCount).2, ?_⟩
  unfold receiveDeparted
  dsimp only
  rw [if_pos h]
  split
  · exact .inr rfl
  · exact .inl rfl

@[simp] theorem receiveLane_keeps (l : LaneId) (b : Bool) (bytes : List Byte) (s : State) :
    (receiveLane l b bytes s).inputs = s.inputs ∧ (receiveLane l b bytes s).matrix = s.matrix
    ∧ (receiveLane l b bytes s).engine = s.engine ∧ (receiveLane l b bytes s).claims = s.claims
    ∧ (receiveLane l b bytes s).results = s.results ∧ (receiveLane l b bytes s).protection = s.protection
    ∧ (receiveLane l b bytes s).pending = s.pending := by
  refine ⟨?_, ?_, ?_, ?_, ?_, ?_, ?_⟩ <;>
    (unfold receiveLane; dsimp only; (repeat' split) <;> simp)

@[simp] theorem abortSite_keeps (i : Site) (c : EndCause) (o : Bool) (s : State) :
    (abortSite i c o s).inputs = s.inputs ∧ (abortSite i c o s).tables = s.tables ∧ (abortSite i c o s).matrix = s.matrix
    ∧ (abortSite i c o s).taps = s.taps ∧ (abortSite i c o s).protection = s.protection
    ∧ (abortSite i c o s).freeCount = s.freeCount ∧ (abortSite i c o s).due = s.due
    ∧ (abortSite i c o s).pending = s.pending := by
  refine ⟨?_, ?_, ?_, ?_, ?_, ?_, ?_, ?_⟩ <;>
    (unfold abortSite; dsimp only; (repeat' split) <;> simp)

@[simp] theorem abortSites_keeps (l : List Site) (c : Site → EndCause) (o : Bool) (s : State) :
    (abortSites l c o s).inputs = s.inputs ∧ (abortSites l c o s).tables = s.tables ∧ (abortSites l c o s).matrix = s.matrix
    ∧ (abortSites l c o s).taps = s.taps ∧ (abortSites l c o s).protection = s.protection
    ∧ (abortSites l c o s).freeCount = s.freeCount ∧ (abortSites l c o s).due = s.due
    ∧ (abortSites l c o s).pending = s.pending := by
  unfold abortSites
  exact ⟨foldl_keeps (fun s => s.inputs) _ (fun s a => by split <;> simp) _ _,
    foldl_keeps (fun s => s.tables) _ (fun s a => by split <;> simp) _ _,
    foldl_keeps (fun s => s.matrix) _ (fun s a => by split <;> simp) _ _,
    foldl_keeps (fun s => s.taps) _ (fun s a => by split <;> simp) _ _,
    foldl_keeps (fun s => s.protection) _ (fun s a => by split <;> simp) _ _,
    foldl_keeps (fun s => s.freeCount) _ (fun s a => by split <;> simp) _ _,
    foldl_keeps (fun s => s.due) _ (fun s a => by split <;> simp) _ _,
    foldl_keeps (fun s => s.pending) _ (fun s a => by split <;> simp) _ _⟩

@[simp] theorem outputsOff_keeps  (s : State) :
    (outputsOff s).inputs = s.inputs ∧ (outputsOff s).tables = s.tables ∧ (outputsOff s).matrix = s.matrix
    ∧ (outputsOff s).engine = s.engine ∧ (outputsOff s).claims = s.claims ∧ (outputsOff s).runs = s.runs
    ∧ (outputsOff s).results = s.results ∧ (outputsOff s).taps = s.taps ∧ (outputsOff s).protection = s.protection
    ∧ (outputsOff s).freeCount = s.freeCount ∧ (outputsOff s).due = s.due ∧ (outputsOff s).pending = s.pending := by
  unfold outputsOff
  exact ⟨foldl_keeps (fun s => s.inputs) _ (fun s a => by dsimp only; split <;> simp) _ _,
    foldl_keeps (fun s => s.tables) _ (fun s a => by dsimp only; split <;> simp) _ _,
    foldl_keeps (fun s => s.matrix) _ (fun s a => by dsimp only; split <;> simp) _ _,
    foldl_keeps (fun s => s.engine) _ (fun s a => by dsimp only; split <;> simp) _ _,
    foldl_keeps (fun s => s.claims) _ (fun s a => by dsimp only; split <;> simp) _ _,
    foldl_keeps (fun s => s.runs) _ (fun s a => by dsimp only; split <;> simp) _ _,
    foldl_keeps (fun s => s.results) _ (fun s a => by dsimp only; split <;> simp) _ _,
    foldl_keeps (fun s => s.taps) _ (fun s a => by dsimp only; split <;> simp) _ _,
    foldl_keeps (fun s => s.protection) _ (fun s a => by dsimp only; split <;> simp) _ _,
    foldl_keeps (fun s => s.freeCount) _ (fun s a => by dsimp only; split <;> simp) _ _,
    foldl_keeps (fun s => s.due) _ (fun s a => by dsimp only; split <;> simp) _ _,
    foldl_keeps (fun s => s.pending) _ (fun s a => by dsimp only; split <;> simp) _ _⟩

@[simp] theorem enterSafeState_keeps (c : CauseSet) (s : State) :
    (enterSafeState c s).inputs = s.inputs ∧ (enterSafeState c s).tables = s.tables ∧ (enterSafeState c s).matrix = s.matrix
    ∧ (enterSafeState c s).taps = s.taps ∧ (enterSafeState c s).due = s.due ∧ (enterSafeState c s).pending = s.pending := by
  refine ⟨?_, ?_, ?_, ?_, ?_, ?_⟩ <;>
    (unfold enterSafeState; simp)

@[simp] theorem raiseCause_keeps (c : CauseSet) (s : State) :
    (raiseCause c s).inputs = s.inputs ∧ (raiseCause c s).tables = s.tables ∧ (raiseCause c s).matrix = s.matrix
    ∧ (raiseCause c s).taps = s.taps ∧ (raiseCause c s).due = s.due ∧ (raiseCause c s).pending = s.pending := by
  refine ⟨?_, ?_, ?_, ?_, ?_, ?_⟩ <;>
    (unfold raiseCause; (repeat' split) <;> simp)

@[simp] theorem stopSite_keeps (i : Site) (s : State) :
    (stopSite i s).inputs = s.inputs ∧ (stopSite i s).tables = s.tables ∧ (stopSite i s).matrix = s.matrix
    ∧ (stopSite i s).claims = s.claims ∧ (stopSite i s).results = s.results ∧ (stopSite i s).taps = s.taps
    ∧ (stopSite i s).protection = s.protection ∧ (stopSite i s).freeCount = s.freeCount ∧ (stopSite i s).due = s.due
    ∧ (stopSite i s).pending = s.pending := by
  refine ⟨?_, ?_, ?_, ?_, ?_, ?_, ?_, ?_, ?_, ?_⟩ <;>
    (unfold stopSite; dsimp only; (repeat' split) <;> simp)

@[simp] theorem foldl_stop_keeps (l : List Site) (s : State) :
    (l.foldl (fun s i => stopSite i s) s).inputs = s.inputs ∧ (l.foldl (fun s i => stopSite i s) s).tables = s.tables
    ∧ (l.foldl (fun s i => stopSite i s) s).matrix = s.matrix ∧ (l.foldl (fun s i => stopSite i s) s).claims = s.claims
    ∧ (l.foldl (fun s i => stopSite i s) s).results = s.results ∧ (l.foldl (fun s i => stopSite i s) s).taps = s.taps
    ∧ (l.foldl (fun s i => stopSite i s) s).protection = s.protection
    ∧ (l.foldl (fun s i => stopSite i s) s).freeCount = s.freeCount ∧ (l.foldl (fun s i => stopSite i s) s).due = s.due
    ∧ (l.foldl (fun s i => stopSite i s) s).pending = s.pending := by
  exact ⟨foldl_keeps (fun s => s.inputs) _ (fun s a => by simp) _ _,
    foldl_keeps (fun s => s.tables) _ (fun s a => by simp) _ _,
    foldl_keeps (fun s => s.matrix) _ (fun s a => by simp) _ _,
    foldl_keeps (fun s => s.claims) _ (fun s a => by simp) _ _,
    foldl_keeps (fun s => s.results) _ (fun s a => by simp) _ _,
    foldl_keeps (fun s => s.taps) _ (fun s a => by simp) _ _,
    foldl_keeps (fun s => s.protection) _ (fun s a => by simp) _ _,
    foldl_keeps (fun s => s.freeCount) _ (fun s a => by simp) _ _,
    foldl_keeps (fun s => s.due) _ (fun s a => by simp) _ _,
    foldl_keeps (fun s => s.pending) _ (fun s a => by simp) _ _⟩

@[simp] theorem resetRunState_keeps (tag : Tag) (s : State) :
    (resetRunState tag s).inputs = s.inputs ∧ (resetRunState tag s).tables = s.tables
    ∧ (resetRunState tag s).matrix = s.matrix ∧ (resetRunState tag s).protection = s.protection
    ∧ (resetRunState tag s).due = s.due ∧ (resetRunState tag s).pending = s.pending := by
  refine ⟨?_, ?_, ?_, ?_, ?_, ?_⟩ <;>
    (unfold resetRunState; simp)

/-- A full reset, but for the lanes' call flags and the events of the reset, leaves the cleared part. -/
@[simp] theorem fullReset_cleared (s : State) :
    (fullReset s).inputs = s.inputs ∧ (fullReset s).tables = .reset ∧ (fullReset s).matrix = { image := 0, chain := 0, drivers := 0 }
    ∧ (fullReset s).engine = { queue := [], flight := none, openings := [], flags := 0 }
    ∧ (fullReset s).claims
      = { records := Vector.replicate 12 { holder := none, waits := [] }, timers := Vector.replicate 8 none }
    ∧ (fullReset s).runs = Vector.replicate 8 .reset ∧ (fullReset s).results = Vector.replicate 8 .reset
    ∧ (fullReset s).taps = Vector.replicate 4 .reset
    ∧ (fullReset s).counters = { badFrames := 0, inputDiscards := 0, staleReadings := 0, forwardDrops := 0 }
    ∧ (fullReset s).protection
      = { safe := true, causes := if s.inputs.safeReq then 0b0101 else 0b0001, openDone := true, setting := 0, timer := none }
    ∧ (fullReset s).due = [] ∧ (fullReset s).pending = s.pending := by
  refine ⟨?_, ?_, ?_, ?_, ?_, ?_, ?_, ?_, ?_, ?_, ?_, ?_⟩ <;>
    (simp only [fullReset, raiseFree_keeps]
     refine (foldl_keeps _ (fun (t : State) (l : LaneId) => t.onLane l fun x => { x with called := true }) (fun _ _ => rfl) _ _).trans ?_
     simp [State.cleared, Matrix.cleared])

end Sys2Proof.Machine
end

