-- ==== Sys2Proof/Laws/Effects.lean ====
section
/-! SUPPORT. What aborts, stops and the entry to SAFE leave in the transition engine, and in the runs. -/

namespace Sys2Proof.Machine

/-- The engine after a site's STEP commit has gone (spec R32 a, R36 b). -/
def Engine.withoutStep (e : Engine) (i : Site) : Engine :=
  { e with
    queue := e.queue.filter fun c => !(decide (c.place = .site i) && match c.work with
      | .step _ => true
      | _ => false)
    flight := e.flight.map fun t => if t.kind = .step (some i) then { t with kind := .step none } else t }

theorem dropStepCommit_engine (i : Site) (s : State) : (dropStepCommit i s).engine = s.engine.withoutStep i := rfl

/-- An abort takes the site's STEP commit, and where it opens appends the SITE-OPEN (spec R72 b and g). -/
theorem abortSite_engine (i : Site) (cause : EndCause) (opens : Bool) (s : State) :
    (abortSite i cause opens s).engine
      = { s.engine.withoutStep i with
          queue := (s.engine.withoutStep i).queue
            ++ if opens && s.tables.sites[i].openOnAbort then [siteCommit i .siteOpen s] else [] } := by
  have key : ∀ y : State, y.engine = s.engine.withoutStep i → y.tables = s.tables →
      (let z := (placeSummary i cause y).onRun i fun r => { r with state := .idle, pause := false }
       if opens && z.tables.sites[i].openOnAbort then enqueue (siteCommit i .siteOpen z) z else z).engine
      = { s.engine.withoutStep i with
          queue := (s.engine.withoutStep i).queue
            ++ if opens && s.tables.sites[i].openOnAbort then [siteCommit i .siteOpen s] else [] } := by
    intro y he ht
    have hz : ((placeSummary i cause y).onRun i fun r => { r with state := .idle, pause := false }).tables = s.tables := by
      simp [ht]
    simp only [hz]
    split
    · simp [enqueue, he, siteCommit, ht]
    · simp [he]
  have hx : (abandonClaims i (dropStepCommit i (s.onRun i fun r => { r with ctx := none }))).engine = s.engine.withoutStep i :=
    (abandonClaims_keeps i _).2.2.2.1
  have ht : (abandonClaims i (dropStepCommit i (s.onRun i fun r => { r with ctx := none }))).tables = s.tables := by simp
  unfold abortSite
  refine key _ ?_ ?_
  · split
    · split
      · simpa using hx
      · exact hx
    · exact hx
  · split
    · split
      · simp
      · exact ht
    · exact ht

/-- A step's move leaves the engine as it is, but for the commit it may append (spec R24, R83). -/
theorem siteAct_engine (i : Site) (s : State) : ∃ l : List Commit, (siteAct i s).engine = { s.engine with queue := s.engine.queue ++ l } := by
  have hs : ∀ t : State, t.engine = s.engine → ∃ l : List Commit, t.engine = { s.engine with queue := s.engine.queue ++ l } := by
    intro t ht
    exact ⟨[], by simp [ht]⟩
  unfold siteAct
  split
  · exact hs _ rfl
  · split
    case h_3 =>
      unfold applyPhase
      split
      · exact hs _ (by simp)
      · exact ⟨_, rfl⟩
    all_goals exact hs _ (by simp)

end Sys2Proof.Machine
end

