-- ==== Sys2Proof/Laws/Layouts.lean ====
section
/-! SUPPORT. What is laid out is read back: numbers, entries, lists of entries (spec R179, TABLE 10-11, TABLE 10-12). -/

namespace Sys2Proof.Machine

@[simp] theorem word2_bytes (x : Half) : word2 (x.extractLsb' 8 8) (x.extractLsb' 0 8) = x := by
  unfold word2
  ext i hi
  simp only [BitVec.getElem_append, BitVec.getElem_extractLsb']
  split <;> simp_all

@[simp] theorem word3_bytes (x : BitVec 24) : word3 (x.extractLsb' 16 8) (x.extractLsb' 8 8) (x.extractLsb' 0 8) = x := by
  unfold word3
  ext i hi
  simp only [BitVec.getElem_append, BitVec.getElem_extractLsb']
  simp only [BitVec.getLsbD, BitVec.getElem_eq_testBit_toNat]
  split
  · congr 1; omega
  · split
    · congr 1; omega
    · congr 1; omega

@[simp] theorem word4_bytes (x : BitVec 32) :
    word4 (x.extractLsb' 24 8) (x.extractLsb' 16 8) (x.extractLsb' 8 8) (x.extractLsb' 0 8) = x := by
  unfold word4
  ext i hi
  simp only [BitVec.getElem_append, BitVec.getElem_extractLsb']
  simp only [BitVec.getLsbD, BitVec.getElem_eq_testBit_toNat]
  split
  · congr 1; omega
  · split
    · congr 1; omega
    · split
      · congr 1; omega
      · congr 1; omega

theorem RelayTypeRaw.parse_bytes (e : RelayTypeRaw) (rest : List Byte) : RelayTypeRaw.parse (RelayTypeRaw.bytes e ++ rest) = some (e, rest) := by
  simp [RelayTypeRaw.bytes, RelayTypeRaw.parse, bytes2]

theorem BusRaw.parse_bytes (e : BusRaw) (rest : List Byte) : BusRaw.parse (BusRaw.bytes e ++ rest) = some (e, rest) := by
  simp [BusRaw.bytes, BusRaw.parse]

theorem SiteRaw.parse_bytes (e : SiteRaw) (rest : List Byte) : SiteRaw.parse (SiteRaw.bytes e ++ rest) = some (e, rest) := by
  simp [SiteRaw.bytes, SiteRaw.parse, bytes2]

theorem InstrumentRaw.parse_bytes (e : InstrumentRaw) (rest : List Byte) :
    InstrumentRaw.parse (InstrumentRaw.bytes e ++ rest) = some (e, rest) := by
  simp [InstrumentRaw.bytes, InstrumentRaw.parse]

theorem ChannelRaw.parse_bytes (e : ChannelRaw) (rest : List Byte) : ChannelRaw.parse (ChannelRaw.bytes e ++ rest) = some (e, rest) := by
  simp [ChannelRaw.bytes, ChannelRaw.parse, bytes2, bytes3]

theorem LimitRaw.parse_bytes (e : LimitRaw) (rest : List Byte) : LimitRaw.parse (LimitRaw.bytes e ++ rest) = some (e, rest) := by
  simp [LimitRaw.bytes, LimitRaw.parse, bytes2, bytes3]

theorem OpRaw.parse_bytes (e : OpRaw) (rest : List Byte) : OpRaw.parse (OpRaw.bytes e ++ rest) = some (e, rest) := by
  simp [OpRaw.bytes, OpRaw.parse, bytes4]

theorem StepRaw.parse_bytes (e : StepRaw) (rest : List Byte) : StepRaw.parse (StepRaw.bytes e ++ rest) = some (e, rest) := by
  simp [StepRaw.bytes, StepRaw.parse, bytes2]

theorem TapRaw.parse_bytes (e : TapRaw) (rest : List Byte) : TapRaw.parse (TapRaw.bytes e ++ rest) = some (e, rest) := by
  simp [TapRaw.bytes, TapRaw.parse]

theorem LaneSetRaw.parse_bytes (e : LaneSetRaw) (rest : List Byte) : LaneSetRaw.parse (LaneSetRaw.bytes e ++ rest) = some (e, rest) := by
  simp [LaneSetRaw.bytes, LaneSetRaw.parse]

/-- Two bytes, most significant first, are the number again. -/
theorem bytes2_word2 (a b : Byte) : bytes2 (word2 a b) = [a, b] := by
  have h1 : (a ++ b : BitVec 16).extractLsb' 8 8 = a := by
    apply BitVec.eq_of_getLsbD_eq
    intro i hi
    rw [BitVec.getLsbD_extractLsb']
    simp only [hi, decide_true, Bool.true_and]
    rw [BitVec.getLsbD_append]
    simp
  have h2 : (a ++ b : BitVec 16).extractLsb' 0 8 = b := by
    apply BitVec.eq_of_getLsbD_eq
    intro i hi
    rw [BitVec.getLsbD_extractLsb']
    simp only [hi, decide_true, Bool.true_and]
    rw [BitVec.getLsbD_append]
    simp [hi]
  exact congrArg₂ (fun x y => [x, y]) h1 h2

/-- Items laid out one after the other are read back. -/
theorem parseMany_bytesAll {α : Type} {f : α → List Byte} {p : List Byte → Option (α × List Byte)} (l : List α)
    (h : ∀ a ∈ l, ∀ rest, p (f a ++ rest) = some (a, rest)) (rest : List Byte) :
    parseMany p l.length (bytesAll f l ++ rest) = some (l, rest) := by
  induction l with
  | nil => rfl
  | cons a l ih =>
    have ih' := ih fun b hb => h b (List.mem_cons_of_mem _ hb)
    simp only [bytesAll] at ih'
    simp [parseMany, bytesAll, List.append_assoc, h a List.mem_cons_self, ih']

theorem byteOf_toNat {n : Nat} (h : n ≤ 255) : (byteOf n).toNat = n := by
  simp only [byteOf, BitVec.toNat_ofNat]
  omega

/-- A count that fits in its byte, and the items behind it. -/
theorem parseAll_bytesAll {α : Type} {f : α → List Byte} {p : List Byte → Option (α × List Byte)} (l : List α)
    (hl : l.length ≤ 255) (h : ∀ a ∈ l, ∀ rest, p (f a ++ rest) = some (a, rest)) :
    parseAll p (byteOf l.length) (bytesAll f l) = some l := by
  have := parseMany_bytesAll l h []
  rw [List.append_nil] at this
  simp [parseAll, byteOf_toNat hl, this]

theorem PatchRaw.parse_bytes (e : PatchRaw) (he : e.ops.length ≤ 255) (rest : List Byte) :
    PatchRaw.parse (PatchRaw.bytes e ++ rest) = some (e, rest) := by
  simp [PatchRaw.bytes, PatchRaw.parse, byteOf_toNat he, parseMany_bytesAll e.ops (fun a _ r => OpRaw.parse_bytes a r) rest]

/-! ### The requests whose counts decide their length (spec TABLE 10-13) -/

theorem readRequest_writeTable (args : List Byte) : readRequest (0x02 :: args) = readWriteTable args := rfl

theorem readRequest_setLanes (n : Byte) (rest : List Byte) :
    readRequest (0x04 :: n :: rest) = (parseAll LaneSetRaw.parse n rest).map .setLanes := rfl

theorem readRequest_patch (o h1 h0 n : Byte) (rest : List Byte) :
    readRequest (0x05 :: o :: h1 :: h0 :: n :: rest) = (parseAll OpRaw.parse n rest).map fun ops => .patch o (word2 h1 h0) ops := rfl

theorem readRequest_setTaps (n : Byte) (rest : List Byte) :
    readRequest (0x0E :: n :: rest) = (parseAll TapRaw.parse n rest).map .setTaps := rfl

end Sys2Proof.Machine
end

