-- ==== Sys2Proof/Laws/Requests.lean ====
section
/-! SUPPORT. What serving a request and choosing a frame leave unchanged. -/

set_option linter.unusedTactic false
set_option linter.unreachableTactic false
set_option linter.unnecessarySeqFocus false

namespace Sys2Proof.Machine

@[simp] theorem writeRelayTypes_keeps (es : List RelayTypeRaw) (s : State) :
    ((writeRelayTypes es s).2).inputs = s.inputs ∧ ((writeRelayTypes es s).2).matrix = s.matrix
    ∧ ((writeRelayTypes es s).2).engine = s.engine ∧ ((writeRelayTypes es s).2).claims = s.claims
    ∧ ((writeRelayTypes es s).2).runs = s.runs ∧ ((writeRelayTypes es s).2).results = s.results
    ∧ ((writeRelayTypes es s).2).lanes = s.lanes ∧ ((writeRelayTypes es s).2).taps = s.taps
    ∧ ((writeRelayTypes es s).2).counters = s.counters ∧ ((writeRelayTypes es s).2).trunk = s.trunk
    ∧ ((writeRelayTypes es s).2).protection = s.protection ∧ ((writeRelayTypes es s).2).freeCount = s.freeCount
    ∧ ((writeRelayTypes es s).2).due = s.due ∧ ((writeRelayTypes es s).2).pending = s.pending := by
  refine ⟨?_, ?_, ?_, ?_, ?_, ?_, ?_, ?_, ?_, ?_, ?_, ?_, ?_, ?_⟩ <;>
    (unfold writeRelayTypes writeAll; (try dsimp only); (repeat' split) <;> simp)

@[simp] theorem writeBuses_keeps (es : List BusRaw) (s : State) :
    ((writeBuses es s).2).inputs = s.inputs ∧ ((writeBuses es s).2).matrix = s.matrix
    ∧ ((writeBuses es s).2).engine = s.engine ∧ ((writeBuses es s).2).claims = s.claims
    ∧ ((writeBuses es s).2).runs = s.runs ∧ ((writeBuses es s).2).results = s.results
    ∧ ((writeBuses es s).2).lanes = s.lanes ∧ ((writeBuses es s).2).taps = s.taps
    ∧ ((writeBuses es s).2).counters = s.counters ∧ ((writeBuses es s).2).trunk = s.trunk
    ∧ ((writeBuses es s).2).protection = s.protection ∧ ((writeBuses es s).2).freeCount = s.freeCount
    ∧ ((writeBuses es s).2).due = s.due ∧ ((writeBuses es s).2).pending = s.pending := by
  refine ⟨?_, ?_, ?_, ?_, ?_, ?_, ?_, ?_, ?_, ?_, ?_, ?_, ?_, ?_⟩ <;>
    (unfold writeBuses writeAll; (try dsimp only); (repeat' split) <;> simp)

@[simp] theorem writeSites_keeps (es : List SiteRaw) (s : State) :
    ((writeSites es s).2).inputs = s.inputs ∧ ((writeSites es s).2).matrix = s.matrix
    ∧ ((writeSites es s).2).engine = s.engine ∧ ((writeSites es s).2).claims = s.claims
    ∧ ((writeSites es s).2).runs = s.runs ∧ ((writeSites es s).2).results = s.results
    ∧ ((writeSites es s).2).lanes = s.lanes ∧ ((writeSites es s).2).taps = s.taps
    ∧ ((writeSites es s).2).counters = s.counters ∧ ((writeSites es s).2).trunk = s.trunk
    ∧ ((writeSites es s).2).protection = s.protection ∧ ((writeSites es s).2).freeCount = s.freeCount
    ∧ ((writeSites es s).2).due = s.due ∧ ((writeSites es s).2).pending = s.pending := by
  refine ⟨?_, ?_, ?_, ?_, ?_, ?_, ?_, ?_, ?_, ?_, ?_, ?_, ?_, ?_⟩ <;>
    (unfold writeSites writeAll; (try dsimp only); (repeat' split) <;> simp)

@[simp] theorem writeInstruments_keeps (es : List InstrumentRaw) (s : State) :
    ((writeInstruments es s).2).inputs = s.inputs ∧ ((writeInstruments es s).2).matrix = s.matrix
    ∧ ((writeInstruments es s).2).engine = s.engine ∧ ((writeInstruments es s).2).claims = s.claims
    ∧ ((writeInstruments es s).2).runs = s.runs ∧ ((writeInstruments es s).2).results = s.results
    ∧ ((writeInstruments es s).2).lanes = s.lanes ∧ ((writeInstruments es s).2).taps = s.taps
    ∧ ((writeInstruments es s).2).counters = s.counters ∧ ((writeInstruments es s).2).trunk = s.trunk
    ∧ ((writeInstruments es s).2).protection = s.protection ∧ ((writeInstruments es s).2).freeCount = s.freeCount
    ∧ ((writeInstruments es s).2).due = s.due ∧ ((writeInstruments es s).2).pending = s.pending := by
  refine ⟨?_, ?_, ?_, ?_, ?_, ?_, ?_, ?_, ?_, ?_, ?_, ?_, ?_, ?_⟩ <;>
    (unfold writeInstruments writeAll; (try dsimp only); (repeat' split) <;> simp)

@[simp] theorem writeChannels_keeps (es : List ChannelRaw) (s : State) :
    ((writeChannels es s).2).inputs = s.inputs ∧ ((writeChannels es s).2).matrix = s.matrix
    ∧ ((writeChannels es s).2).engine = s.engine ∧ ((writeChannels es s).2).claims = s.claims
    ∧ ((writeChannels es s).2).runs = s.runs ∧ ((writeChannels es s).2).results = s.results
    ∧ ((writeChannels es s).2).lanes = s.lanes ∧ ((writeChannels es s).2).taps = s.taps
    ∧ ((writeChannels es s).2).counters = s.counters ∧ ((writeChannels es s).2).protection = s.protection
    ∧ ((writeChannels es s).2).due = s.due ∧ ((writeChannels es s).2).pending = s.pending := by
  refine ⟨?_, ?_, ?_, ?_, ?_, ?_, ?_, ?_, ?_, ?_, ?_, ?_⟩ <;>
    (unfold writeChannels writeAll; (try dsimp only); (repeat' split) <;> simp)

@[simp] theorem writeLimits_keeps (es : List LimitRaw) (s : State) :
    ((writeLimits es s).2).inputs = s.inputs ∧ ((writeLimits es s).2).matrix = s.matrix
    ∧ ((writeLimits es s).2).engine = s.engine ∧ ((writeLimits es s).2).claims = s.claims
    ∧ ((writeLimits es s).2).runs = s.runs ∧ ((writeLimits es s).2).results = s.results
    ∧ ((writeLimits es s).2).lanes = s.lanes ∧ ((writeLimits es s).2).taps = s.taps
    ∧ ((writeLimits es s).2).counters = s.counters ∧ ((writeLimits es s).2).trunk = s.trunk
    ∧ ((writeLimits es s).2).protection = s.protection ∧ ((writeLimits es s).2).freeCount = s.freeCount
    ∧ ((writeLimits es s).2).due = s.due ∧ ((writeLimits es s).2).pending = s.pending := by
  refine ⟨?_, ?_, ?_, ?_, ?_, ?_, ?_, ?_, ?_, ?_, ?_, ?_, ?_, ?_⟩ <;>
    (unfold writeLimits writeAll; (try dsimp only); (repeat' split) <;> simp)

@[simp] theorem writePatches_keeps (es : List PatchRaw) (s : State) :
    ((writePatches es s).2).inputs = s.inputs ∧ ((writePatches es s).2).matrix = s.matrix
    ∧ ((writePatches es s).2).engine = s.engine ∧ ((writePatches es s).2).claims = s.claims
    ∧ ((writePatches es s).2).runs = s.runs ∧ ((writePatches es s).2).results = s.results
    ∧ ((writePatches es s).2).lanes = s.lanes ∧ ((writePatches es s).2).taps = s.taps
    ∧ ((writePatches es s).2).counters = s.counters ∧ ((writePatches es s).2).trunk = s.trunk
    ∧ ((writePatches es s).2).protection = s.protection ∧ ((writePatches es s).2).freeCount = s.freeCount
    ∧ ((writePatches es s).2).due = s.due ∧ ((writePatches es s).2).pending = s.pending := by
  refine ⟨?_, ?_, ?_, ?_, ?_, ?_, ?_, ?_, ?_, ?_, ?_, ?_, ?_, ?_⟩ <;>
    (unfold writePatches writeAll; (try dsimp only); (repeat' split) <;> simp)

@[simp] theorem writeSteps_keeps (es : List StepRaw) (s : State) :
    ((writeSteps es s).2).inputs = s.inputs ∧ ((writeSteps es s).2).matrix = s.matrix
    ∧ ((writeSteps es s).2).engine = s.engine ∧ ((writeSteps es s).2).claims = s.claims
    ∧ ((writeSteps es s).2).runs = s.runs ∧ ((writeSteps es s).2).results = s.results
    ∧ ((writeSteps es s).2).lanes = s.lanes ∧ ((writeSteps es s).2).taps = s.taps
    ∧ ((writeSteps es s).2).counters = s.counters ∧ ((writeSteps es s).2).trunk = s.trunk
    ∧ ((writeSteps es s).2).protection = s.protection ∧ ((writeSteps es s).2).freeCount = s.freeCount
    ∧ ((writeSteps es s).2).due = s.due ∧ ((writeSteps es s).2).pending = s.pending := by
  refine ⟨?_, ?_, ?_, ?_, ?_, ?_, ?_, ?_, ?_, ?_, ?_, ?_, ?_, ?_⟩ <;>
    (unfold writeSteps writeAll; (try dsimp only); (repeat' split) <;> simp)

@[simp] theorem refuse_keeps (tag : Tag) (code : Byte) (st : Status) (s : State) :
    (refuse tag code st s).inputs = s.inputs ∧ (refuse tag code st s).tables = s.tables
    ∧ (refuse tag code st s).matrix = s.matrix ∧ (refuse tag code st s).engine = s.engine
    ∧ (refuse tag code st s).claims = s.claims ∧ (refuse tag code st s).runs = s.runs
    ∧ (refuse tag code st s).results = s.results ∧ (refuse tag code st s).lanes = s.lanes
    ∧ (refuse tag code st s).taps = s.taps ∧ (refuse tag code st s).counters = s.counters
    ∧ (refuse tag code st s).protection = s.protection ∧ (refuse tag code st s).freeCount = s.freeCount
    ∧ (refuse tag code st s).due = s.due ∧ (refuse tag code st s).pending = s.pending := by
  refine ⟨?_, ?_, ?_, ?_, ?_, ?_, ?_, ?_, ?_, ?_, ?_, ?_, ?_, ?_⟩ <;>
    (rfl)

@[simp] theorem serveNop_keeps (tag : Tag) (s : State) :
    (serveNop tag s).inputs = s.inputs ∧ (serveNop tag s).tables = s.tables ∧ (serveNop tag s).matrix = s.matrix
    ∧ (serveNop tag s).engine = s.engine ∧ (serveNop tag s).claims = s.claims ∧ (serveNop tag s).runs = s.runs
    ∧ (serveNop tag s).results = s.results ∧ (serveNop tag s).lanes = s.lanes ∧ (serveNop tag s).taps = s.taps
    ∧ (serveNop tag s).counters = s.counters ∧ (serveNop tag s).protection = s.protection
    ∧ (serveNop tag s).freeCount = s.freeCount ∧ (serveNop tag s).due = s.due ∧ (serveNop tag s).pending = s.pending := by
  refine ⟨?_, ?_, ?_, ?_, ?_, ?_, ?_, ?_, ?_, ?_, ?_, ?_, ?_, ?_⟩ <;>
    (unfold serveNop; (try dsimp only); (repeat' split) <;> simp)

@[simp] theorem serveSetSilence_keeps (tag : Tag) (x : Byte) (s : State) :
    (serveSetSilence tag x s).inputs = s.inputs ∧ (serveSetSilence tag x s).tables = s.tables
    ∧ (serveSetSilence tag x s).matrix = s.matrix ∧ (serveSetSilence tag x s).engine = s.engine
    ∧ (serveSetSilence tag x s).claims = s.claims ∧ (serveSetSilence tag x s).runs = s.runs
    ∧ (serveSetSilence tag x s).results = s.results ∧ (serveSetSilence tag x s).lanes = s.lanes
    ∧ (serveSetSilence tag x s).taps = s.taps ∧ (serveSetSilence tag x s).counters = s.counters
    ∧ (serveSetSilence tag x s).freeCount = s.freeCount ∧ (serveSetSilence tag x s).due = s.due
    ∧ (serveSetSilence tag x s).pending = s.pending := by
  refine ⟨?_, ?_, ?_, ?_, ?_, ?_, ?_, ?_, ?_, ?_, ?_, ?_, ?_⟩ <;>
    (unfold serveSetSilence; (try dsimp only); (repeat' split) <;> simp)

@[simp] theorem serveEnterSafe_keeps (tag : Tag) (s : State) :
    (serveEnterSafe tag s).inputs = s.inputs ∧ (serveEnterSafe tag s).tables = s.tables
    ∧ (serveEnterSafe tag s).matrix = s.matrix ∧ (serveEnterSafe tag s).taps = s.taps ∧ (serveEnterSafe tag s).due = s.due
    ∧ (serveEnterSafe tag s).pending = s.pending := by
  refine ⟨?_, ?_, ?_, ?_, ?_, ?_⟩ <;>
    (unfold serveEnterSafe; (try dsimp only); (repeat' split) <;> simp)

@[simp] theorem serveClearSafe_keeps (tag : Tag) (s : State) :
    (serveClearSafe tag s).inputs = s.inputs ∧ (serveClearSafe tag s).tables = s.tables
    ∧ (serveClearSafe tag s).matrix = s.matrix ∧ (serveClearSafe tag s).engine = s.engine
    ∧ (serveClearSafe tag s).claims = s.claims ∧ (serveClearSafe tag s).runs = s.runs
    ∧ (serveClearSafe tag s).results = s.results ∧ (serveClearSafe tag s).lanes = s.lanes
    ∧ (serveClearSafe tag s).taps = s.taps ∧ (serveClearSafe tag s).counters = s.counters
    ∧ (serveClearSafe tag s).freeCount = s.freeCount ∧ (serveClearSafe tag s).due = s.due
    ∧ (serveClearSafe tag s).pending = s.pending := by
  refine ⟨?_, ?_, ?_, ?_, ?_, ?_, ?_, ?_, ?_, ?_, ?_, ?_, ?_⟩ <;>
    (unfold serveClearSafe; (try dsimp only); (repeat' split) <;> simp)

@[simp] theorem serveReadStatus_keeps (tag : Tag) (c : Byte) (s : State) :
    (serveReadStatus tag c s).inputs = s.inputs ∧ (serveReadStatus tag c s).tables = s.tables
    ∧ (serveReadStatus tag c s).matrix = s.matrix ∧ (serveReadStatus tag c s).engine = s.engine
    ∧ (serveReadStatus tag c s).claims = s.claims ∧ (serveReadStatus tag c s).runs = s.runs
    ∧ (serveReadStatus tag c s).results = s.results ∧ (serveReadStatus tag c s).lanes = s.lanes
    ∧ (serveReadStatus tag c s).taps = s.taps ∧ (serveReadStatus tag c s).protection = s.protection
    ∧ (serveReadStatus tag c s).freeCount = s.freeCount ∧ (serveReadStatus tag c s).due = s.due
    ∧ (serveReadStatus tag c s).pending = s.pending := by
  refine ⟨?_, ?_, ?_, ?_, ?_, ?_, ?_, ?_, ?_, ?_, ?_, ?_, ?_⟩ <;>
    (unfold serveReadStatus; (try dsimp only); (repeat' split) <;> simp)

@[simp] theorem serveReadTable_keeps (tag : Tag) (t : Byte) (f : Half) (n : Byte) (s : State) :
    (serveReadTable tag t f n s).inputs = s.inputs ∧ (serveReadTable tag t f n s).tables = s.tables
    ∧ (serveReadTable tag t f n s).matrix = s.matrix ∧ (serveReadTable tag t f n s).engine = s.engine
    ∧ (serveReadTable tag t f n s).claims = s.claims ∧ (serveReadTable tag t f n s).runs = s.runs
    ∧ (serveReadTable tag t f n s).results = s.results ∧ (serveReadTable tag t f n s).lanes = s.lanes
    ∧ (serveReadTable tag t f n s).taps = s.taps ∧ (serveReadTable tag t f n s).counters = s.counters
    ∧ (serveReadTable tag t f n s).protection = s.protection ∧ (serveReadTable tag t f n s).freeCount = s.freeCount
    ∧ (serveReadTable tag t f n s).due = s.due ∧ (serveReadTable tag t f n s).pending = s.pending := by
  refine ⟨?_, ?_, ?_, ?_, ?_, ?_, ?_, ?_, ?_, ?_, ?_, ?_, ?_, ?_⟩ <;>
    (unfold serveReadTable; (try dsimp only); (repeat' split) <;> simp)

@[simp] theorem foldl_setLane_keeps (f : LaneId → Option (Bool × Bool)) (ls : List LaneId) (s : State) :
    (ls.foldl (fun s l => match f l with
      | some (d, b) => setLane l d b s
      | none => s) s).inputs = s.inputs
    ∧ (ls.foldl (fun s l => match f l with
      | some (d, b) => setLane l d b s
      | none => s) s).matrix = s.matrix
    ∧ (ls.foldl (fun s l => match f l with
      | some (d, b) => setLane l d b s
      | none => s) s).engine = s.engine
    ∧ (ls.foldl (fun s l => match f l with
      | some (d, b) => setLane l d b s
      | none => s) s).claims = s.claims
    ∧ (ls.foldl (fun s l => match f l with
      | some (d, b) => setLane l d b s
      | none => s) s).results = s.results
    ∧ (ls.foldl (fun s l => match f l with
      | some (d, b) => setLane l d b s
      | none => s) s).taps = s.taps
    ∧ (ls.foldl (fun s l => match f l with
      | some (d, b) => setLane l d b s
      | none => s) s).protection = s.protection
    ∧ (ls.foldl (fun s l => match f l with
      | some (d, b) => setLane l d b s
      | none => s) s).due = s.due
    ∧ (ls.foldl (fun s l => match f l with
      | some (d, b) => setLane l d b s
      | none => s) s).pending = s.pending := by
  exact ⟨foldl_keeps (fun s => s.inputs) _ (fun s a => by (repeat' split) <;> simp) _ _,
    foldl_keeps (fun s => s.matrix) _ (fun s a => by (repeat' split) <;> simp) _ _,
    foldl_keeps (fun s => s.engine) _ (fun s a => by (repeat' split) <;> simp) _ _,
    foldl_keeps (fun s => s.claims) _ (fun s a => by (repeat' split) <;> simp) _ _,
    foldl_keeps (fun s => s.results) _ (fun s a => by (repeat' split) <;> simp) _ _,
    foldl_keeps (fun s => s.taps) _ (fun s a => by (repeat' split) <;> simp) _ _,
    foldl_keeps (fun s => s.protection) _ (fun s a => by (repeat' split) <;> simp) _ _,
    foldl_keeps (fun s => s.due) _ (fun s a => by (repeat' split) <;> simp) _ _,
    foldl_keeps (fun s => s.pending) _ (fun s a => by (repeat' split) <;> simp) _ _⟩

@[simp] theorem serveSetLanes_keeps (tag : Tag) (l : List LaneSetRaw) (s : State) :
    (serveSetLanes tag l s).inputs = s.inputs ∧ (serveSetLanes tag l s).matrix = s.matrix
    ∧ (serveSetLanes tag l s).engine = s.engine ∧ (serveSetLanes tag l s).claims = s.claims
    ∧ (serveSetLanes tag l s).results = s.results ∧ (serveSetLanes tag l s).taps = s.taps
    ∧ (serveSetLanes tag l s).protection = s.protection ∧ (serveSetLanes tag l s).due = s.due
    ∧ (serveSetLanes tag l s).pending = s.pending := by
  refine ⟨?_, ?_, ?_, ?_, ?_, ?_, ?_, ?_, ?_⟩
  · unfold serveSetLanes; (try dsimp only); split <;> first | (simp; done) | (simp only [respond_keeps]; exact foldl_keeps (fun s => s.inputs) _ (fun s a => by (repeat' split) <;> simp) _ _)
  · unfold serveSetLanes; (try dsimp only); split <;> first | (simp; done) | (simp only [respond_keeps]; exact foldl_keeps (fun s => s.matrix) _ (fun s a => by (repeat' split) <;> simp) _ _)
  · unfold serveSetLanes; (try dsimp only); split <;> first | (simp; done) | (simp only [respond_keeps]; exact foldl_keeps (fun s => s.engine) _ (fun s a => by (repeat' split) <;> simp) _ _)
  · unfold serveSetLanes; (try dsimp only); split <;> first | (simp; done) | (simp only [respond_keeps]; exact foldl_keeps (fun s => s.claims) _ (fun s a => by (repeat' split) <;> simp) _ _)
  · unfold serveSetLanes; (try dsimp only); split <;> first | (simp; done) | (simp only [respond_keeps]; exact foldl_keeps (fun s => s.results) _ (fun s a => by (repeat' split) <;> simp) _ _)
  · unfold serveSetLanes; (try dsimp only); split <;> first | (simp; done) | (simp only [respond_keeps]; exact foldl_keeps (fun s => s.taps) _ (fun s a => by (repeat' split) <;> simp) _ _)
  · unfold serveSetLanes; (try dsimp only); split <;> first | (simp; done) | (simp only [respond_keeps]; exact foldl_keeps (fun s => s.protection) _ (fun s a => by (repeat' split) <;> simp) _ _)
  · unfold serveSetLanes; (try dsimp only); split <;> first | (simp; done) | (simp only [respond_keeps]; exact foldl_keeps (fun s => s.due) _ (fun s a => by (repeat' split) <;> simp) _ _)
  · unfold serveSetLanes; (try dsimp only); split <;> first | (simp; done) | (simp only [respond_keeps]; exact foldl_keeps (fun s => s.pending) _ (fun s a => by (repeat' split) <;> simp) _ _)

@[simp] theorem foldl_onTap_keeps (es : List (TapId × Tap)) (s : State) :
    (es.foldl (fun s e => s.onTap e.1 fun _ => e.2) s).inputs = s.inputs
    ∧ (es.foldl (fun s e => s.onTap e.1 fun _ => e.2) s).tables = s.tables
    ∧ (es.foldl (fun s e => s.onTap e.1 fun _ => e.2) s).matrix = s.matrix
    ∧ (es.foldl (fun s e => s.onTap e.1 fun _ => e.2) s).engine = s.engine
    ∧ (es.foldl (fun s e => s.onTap e.1 fun _ => e.2) s).claims = s.claims
    ∧ (es.foldl (fun s e => s.onTap e.1 fun _ => e.2) s).runs = s.runs
    ∧ (es.foldl (fun s e => s.onTap e.1 fun _ => e.2) s).results = s.results
    ∧ (es.foldl (fun s e => s.onTap e.1 fun _ => e.2) s).lanes = s.lanes
    ∧ (es.foldl (fun s e => s.onTap e.1 fun _ => e.2) s).counters = s.counters
    ∧ (es.foldl (fun s e => s.onTap e.1 fun _ => e.2) s).trunk = s.trunk
    ∧ (es.foldl (fun s e => s.onTap e.1 fun _ => e.2) s).protection = s.protection
    ∧ (es.foldl (fun s e => s.onTap e.1 fun _ => e.2) s).freeCount = s.freeCount
    ∧ (es.foldl (fun s e => s.onTap e.1 fun _ => e.2) s).due = s.due
    ∧ (es.foldl (fun s e => s.onTap e.1 fun _ => e.2) s).pending = s.pending := by
  exact ⟨foldl_keeps (fun s => s.inputs) _ (fun s a => by rfl) _ _,
    foldl_keeps (fun s => s.tables) _ (fun s a => by rfl) _ _,
    foldl_keeps (fun s => s.matrix) _ (fun s a => by rfl) _ _,
    foldl_keeps (fun s => s.engine) _ (fun s a => by rfl) _ _,
    foldl_keeps (fun s => s.claims) _ (fun s a => by rfl) _ _,
    foldl_keeps (fun s => s.runs) _ (fun s a => by rfl) _ _,
    foldl_keeps (fun s => s.results) _ (fun s a => by rfl) _ _,
    foldl_keeps (fun s => s.lanes) _ (fun s a => by rfl) _ _,
    foldl_keeps (fun s => s.counters) _ (fun s a => by rfl) _ _,
    foldl_keeps (fun s => s.trunk) _ (fun s a => by rfl) _ _,
    foldl_keeps (fun s => s.protection) _ (fun s a => by rfl) _ _,
    foldl_keeps (fun s => s.freeCount) _ (fun s a => by rfl) _ _,
    foldl_keeps (fun s => s.due) _ (fun s a => by rfl) _ _,
    foldl_keeps (fun s => s.pending) _ (fun s a => by rfl) _ _⟩

@[simp] theorem serveSetTaps_keeps (tag : Tag) (l : List TapRaw) (s : State) :
    (serveSetTaps tag l s).inputs = s.inputs ∧ (serveSetTaps tag l s).tables = s.tables
    ∧ (serveSetTaps tag l s).matrix = s.matrix ∧ (serveSetTaps tag l s).engine = s.engine
    ∧ (serveSetTaps tag l s).claims = s.claims ∧ (serveSetTaps tag l s).runs = s.runs
    ∧ (serveSetTaps tag l s).results = s.results ∧ (serveSetTaps tag l s).lanes = s.lanes
    ∧ (serveSetTaps tag l s).counters = s.counters ∧ (serveSetTaps tag l s).protection = s.protection
    ∧ (serveSetTaps tag l s).freeCount = s.freeCount ∧ (serveSetTaps tag l s).due = s.due
    ∧ (serveSetTaps tag l s).pending = s.pending := by
  refine ⟨?_, ?_, ?_, ?_, ?_, ?_, ?_, ?_, ?_, ?_, ?_, ?_, ?_⟩ <;>
    (unfold serveSetTaps; (try dsimp only); (repeat' split) <;> simp)

@[simp] theorem serveTakeTaps_keeps (tag : Tag) (s : State) :
    (serveTakeTaps tag s).inputs = s.inputs ∧ (serveTakeTaps tag s).tables = s.tables
    ∧ (serveTakeTaps tag s).matrix = s.matrix ∧ (serveTakeTaps tag s).engine = s.engine
    ∧ (serveTakeTaps tag s).claims = s.claims ∧ (serveTakeTaps tag s).runs = s.runs
    ∧ (serveTakeTaps tag s).results = s.results ∧ (serveTakeTaps tag s).lanes = s.lanes
    ∧ (serveTakeTaps tag s).counters = s.counters ∧ (serveTakeTaps tag s).protection = s.protection
    ∧ (serveTakeTaps tag s).freeCount = s.freeCount ∧ (serveTakeTaps tag s).due = s.due
    ∧ (serveTakeTaps tag s).pending = s.pending := by
  refine ⟨?_, ?_, ?_, ?_, ?_, ?_, ?_, ?_, ?_, ?_, ?_, ?_, ?_⟩ <;>
    (rfl)

@[simp] theorem serveReadMatrix_keeps (tag : Tag) (g : Byte) (s : State) :
    (serveReadMatrix tag g s).inputs = s.inputs ∧ (serveReadMatrix tag g s).tables = s.tables
    ∧ (serveReadMatrix tag g s).matrix = s.matrix ∧ (serveReadMatrix tag g s).engine = s.engine
    ∧ (serveReadMatrix tag g s).claims = s.claims ∧ (serveReadMatrix tag g s).runs = s.runs
    ∧ (serveReadMatrix tag g s).results = s.results ∧ (serveReadMatrix tag g s).lanes = s.lanes
    ∧ (serveReadMatrix tag g s).taps = s.taps ∧ (serveReadMatrix tag g s).counters = s.counters
    ∧ (serveReadMatrix tag g s).protection = s.protection ∧ (serveReadMatrix tag g s).freeCount = s.freeCount
    ∧ (serveReadMatrix tag g s).due = s.due ∧ (serveReadMatrix tag g s).pending = s.pending := by
  refine ⟨?_, ?_, ?_, ?_, ?_, ?_, ?_, ?_, ?_, ?_, ?_, ?_, ?_, ?_⟩ <;>
    (unfold serveReadMatrix; (try dsimp only); (repeat' split) <;> simp)

@[simp] theorem serveVerifyMatrix_keeps (tag : Tag) (g : Byte) (e c : BusSet) (s : State) :
    (serveVerifyMatrix tag g e c s).inputs = s.inputs ∧ (serveVerifyMatrix tag g e c s).tables = s.tables
    ∧ (serveVerifyMatrix tag g e c s).matrix = s.matrix ∧ (serveVerifyMatrix tag g e c s).engine = s.engine
    ∧ (serveVerifyMatrix tag g e c s).claims = s.claims ∧ (serveVerifyMatrix tag g e c s).runs = s.runs
    ∧ (serveVerifyMatrix tag g e c s).results = s.results ∧ (serveVerifyMatrix tag g e c s).lanes = s.lanes
    ∧ (serveVerifyMatrix tag g e c s).taps = s.taps ∧ (serveVerifyMatrix tag g e c s).counters = s.counters
    ∧ (serveVerifyMatrix tag g e c s).protection = s.protection ∧ (serveVerifyMatrix tag g e c s).freeCount = s.freeCount
    ∧ (serveVerifyMatrix tag g e c s).due = s.due ∧ (serveVerifyMatrix tag g e c s).pending = s.pending := by
  refine ⟨?_, ?_, ?_, ?_, ?_, ?_, ?_, ?_, ?_, ?_, ?_, ?_, ?_, ?_⟩ <;>
    (unfold serveVerifyMatrix; (try dsimp only); (repeat' split) <;> simp)

@[simp] theorem enterHost_keeps (c : Commit) (s : State) :
    (enterHost c s).inputs = s.inputs ∧ (enterHost c s).tables = s.tables ∧ (enterHost c s).claims = s.claims
    ∧ (enterHost c s).results = s.results ∧ (enterHost c s).lanes = s.lanes ∧ (enterHost c s).taps = s.taps
    ∧ (enterHost c s).counters = s.counters ∧ (enterHost c s).freeCount = s.freeCount ∧ (enterHost c s).due = s.due
    ∧ (enterHost c s).pending = s.pending := by
  refine ⟨?_, ?_, ?_, ?_, ?_, ?_, ?_, ?_, ?_, ?_⟩ <;>
    (unfold enterHost; (try dsimp only); (repeat' split) <;> simp)

@[simp] theorem servePatch_keeps (tag : Tag) (o : Byte) (h : Half) (ops : List OpRaw) (s : State) :
    (servePatch tag o h ops s).inputs = s.inputs ∧ (servePatch tag o h ops s).tables = s.tables
    ∧ (servePatch tag o h ops s).claims = s.claims ∧ (servePatch tag o h ops s).results = s.results
    ∧ (servePatch tag o h ops s).lanes = s.lanes ∧ (servePatch tag o h ops s).taps = s.taps
    ∧ (servePatch tag o h ops s).counters = s.counters ∧ (servePatch tag o h ops s).freeCount = s.freeCount
    ∧ (servePatch tag o h ops s).due = s.due ∧ (servePatch tag o h ops s).pending = s.pending := by
  refine ⟨?_, ?_, ?_, ?_, ?_, ?_, ?_, ?_, ?_, ?_⟩ <;>
    (unfold servePatch; (try dsimp only); (repeat' split) <;> simp)

@[simp] theorem startSite_keeps (i : Site) (s : State) :
    (startSite i s).inputs = s.inputs ∧ (startSite i s).tables = s.tables ∧ (startSite i s).matrix = s.matrix
    ∧ (startSite i s).engine = s.engine ∧ (startSite i s).claims = s.claims ∧ (startSite i s).results = s.results
    ∧ (startSite i s).lanes = s.lanes ∧ (startSite i s).taps = s.taps ∧ (startSite i s).counters = s.counters
    ∧ (startSite i s).trunk = s.trunk ∧ (startSite i s).protection = s.protection ∧ (startSite i s).freeCount = s.freeCount
    ∧ (startSite i s).due = s.due ∧ (startSite i s).pending = s.pending := by
  refine ⟨?_, ?_, ?_, ?_, ?_, ?_, ?_, ?_, ?_, ?_, ?_, ?_, ?_, ?_⟩ <;>
    (rfl)

@[simp] theorem serveStart_keeps (tag : Tag) (m : SiteMask) (s : State) :
    (serveStart tag m s).inputs = s.inputs ∧ (serveStart tag m s).tables = s.tables ∧ (serveStart tag m s).matrix = s.matrix
    ∧ (serveStart tag m s).engine = s.engine ∧ (serveStart tag m s).claims = s.claims
    ∧ (serveStart tag m s).results = s.results ∧ (serveStart tag m s).lanes = s.lanes ∧ (serveStart tag m s).taps = s.taps
    ∧ (serveStart tag m s).counters = s.counters ∧ (serveStart tag m s).protection = s.protection
    ∧ (serveStart tag m s).freeCount = s.freeCount ∧ (serveStart tag m s).due = s.due
    ∧ (serveStart tag m s).pending = s.pending := by
  refine ⟨?_, ?_, ?_, ?_, ?_, ?_, ?_, ?_, ?_, ?_, ?_, ?_, ?_⟩
  · unfold serveStart; (try dsimp only); simp only [respond_keeps]; exact foldl_keeps (fun s => s.inputs) _ (fun s a => by split <;> simp) _ _
  · unfold serveStart; (try dsimp only); simp only [respond_keeps]; exact foldl_keeps (fun s => s.tables) _ (fun s a => by split <;> simp) _ _
  · unfold serveStart; (try dsimp only); simp only [respond_keeps]; exact foldl_keeps (fun s => s.matrix) _ (fun s a => by split <;> simp) _ _
  · unfold serveStart; (try dsimp only); simp only [respond_keeps]; exact foldl_keeps (fun s => s.engine) _ (fun s a => by split <;> simp) _ _
  · unfold serveStart; (try dsimp only); simp only [respond_keeps]; exact foldl_keeps (fun s => s.claims) _ (fun s a => by split <;> simp) _ _
  · unfold serveStart; (try dsimp only); simp only [respond_keeps]; exact foldl_keeps (fun s => s.results) _ (fun s a => by split <;> simp) _ _
  · unfold serveStart; (try dsimp only); simp only [respond_keeps]; exact foldl_keeps (fun s => s.lanes) _ (fun s a => by split <;> simp) _ _
  · unfold serveStart; (try dsimp only); simp only [respond_keeps]; exact foldl_keeps (fun s => s.taps) _ (fun s a => by split <;> simp) _ _
  · unfold serveStart; (try dsimp only); simp only [respond_keeps]; exact foldl_keeps (fun s => s.counters) _ (fun s a => by split <;> simp) _ _
  · unfold serveStart; (try dsimp only); simp only [respond_keeps]; exact foldl_keeps (fun s => s.protection) _ (fun s a => by split <;> simp) _ _
  · unfold serveStart; (try dsimp only); simp only [respond_keeps]; exact foldl_keeps (fun s => s.freeCount) _ (fun s a => by split <;> simp) _ _
  · unfold serveStart; (try dsimp only); simp only [respond_keeps]; exact foldl_keeps (fun s => s.due) _ (fun s a => by split <;> simp) _ _
  · unfold serveStart; (try dsimp only); simp only [respond_keeps]; exact foldl_keeps (fun s => s.pending) _ (fun s a => by split <;> simp) _ _

@[simp] theorem serveHalt_keeps (tag : Tag) (m : SiteMask) (s : State) :
    (serveHalt tag m s).inputs = s.inputs ∧ (serveHalt tag m s).tables = s.tables ∧ (serveHalt tag m s).matrix = s.matrix
    ∧ (serveHalt tag m s).engine = s.engine ∧ (serveHalt tag m s).claims = s.claims
    ∧ (serveHalt tag m s).results = s.results ∧ (serveHalt tag m s).lanes = s.lanes ∧ (serveHalt tag m s).taps = s.taps
    ∧ (serveHalt tag m s).counters = s.counters ∧ (serveHalt tag m s).protection = s.protection
    ∧ (serveHalt tag m s).freeCount = s.freeCount ∧ (serveHalt tag m s).due = s.due
    ∧ (serveHalt tag m s).pending = s.pending := by
  refine ⟨?_, ?_, ?_, ?_, ?_, ?_, ?_, ?_, ?_, ?_, ?_, ?_, ?_⟩ <;>
    (rfl)

@[simp] theorem resumeSite_keeps (i : Site) (s : State) :
    (resumeSite i s).inputs = s.inputs ∧ (resumeSite i s).tables = s.tables ∧ (resumeSite i s).matrix = s.matrix
    ∧ (resumeSite i s).engine = s.engine ∧ (resumeSite i s).lanes = s.lanes ∧ (resumeSite i s).taps = s.taps
    ∧ (resumeSite i s).counters = s.counters ∧ (resumeSite i s).trunk = s.trunk ∧ (resumeSite i s).protection = s.protection
    ∧ (resumeSite i s).freeCount = s.freeCount ∧ (resumeSite i s).due = s.due ∧ (resumeSite i s).pending = s.pending := by
  refine ⟨?_, ?_, ?_, ?_, ?_, ?_, ?_, ?_, ?_, ?_, ?_, ?_⟩ <;>
    (unfold resumeSite; (try dsimp only); (repeat' split) <;> simp)

@[simp] theorem serveResume_keeps (tag : Tag) (m : SiteMask) (s : State) :
    (serveResume tag m s).inputs = s.inputs ∧ (serveResume tag m s).tables = s.tables
    ∧ (serveResume tag m s).matrix = s.matrix ∧ (serveResume tag m s).engine = s.engine
    ∧ (serveResume tag m s).lanes = s.lanes ∧ (serveResume tag m s).taps = s.taps
    ∧ (serveResume tag m s).counters = s.counters ∧ (serveResume tag m s).protection = s.protection
    ∧ (serveResume tag m s).freeCount = s.freeCount ∧ (serveResume tag m s).due = s.due
    ∧ (serveResume tag m s).pending = s.pending := by
  refine ⟨?_, ?_, ?_, ?_, ?_, ?_, ?_, ?_, ?_, ?_, ?_⟩
  · unfold serveResume; (try dsimp only); simp only [respond_keeps]; exact foldl_keeps (fun s => s.inputs) _ (fun s a => by simp) _ _
  · unfold serveResume; (try dsimp only); simp only [respond_keeps]; exact foldl_keeps (fun s => s.tables) _ (fun s a => by simp) _ _
  · unfold serveResume; (try dsimp only); simp only [respond_keeps]; exact foldl_keeps (fun s => s.matrix) _ (fun s a => by simp) _ _
  · unfold serveResume; (try dsimp only); simp only [respond_keeps]; exact foldl_keeps (fun s => s.engine) _ (fun s a => by simp) _ _
  · unfold serveResume; (try dsimp only); simp only [respond_keeps]; exact foldl_keeps (fun s => s.lanes) _ (fun s a => by simp) _ _
  · unfold serveResume; (try dsimp only); simp only [respond_keeps]; exact foldl_keeps (fun s => s.taps) _ (fun s a => by simp) _ _
  · unfold serveResume; (try dsimp only); simp only [respond_keeps]; exact foldl_keeps (fun s => s.counters) _ (fun s a => by simp) _ _
  · unfold serveResume; (try dsimp only); simp only [respond_keeps]; exact foldl_keeps (fun s => s.protection) _ (fun s a => by simp) _ _
  · unfold serveResume; (try dsimp only); simp only [respond_keeps]; exact foldl_keeps (fun s => s.freeCount) _ (fun s a => by simp) _ _
  · unfold serveResume; (try dsimp only); simp only [respond_keeps]; exact foldl_keeps (fun s => s.due) _ (fun s a => by simp) _ _
  · unfold serveResume; (try dsimp only); simp only [respond_keeps]; exact foldl_keeps (fun s => s.pending) _ (fun s a => by simp) _ _

@[simp] theorem serveAbort_keeps (tag : Tag) (m : SiteMask) (p : Byte) (s : State) :
    (serveAbort tag m p s).inputs = s.inputs ∧ (serveAbort tag m p s).tables = s.tables
    ∧ (serveAbort tag m p s).matrix = s.matrix ∧ (serveAbort tag m p s).taps = s.taps
    ∧ (serveAbort tag m p s).protection = s.protection ∧ (serveAbort tag m p s).freeCount = s.freeCount
    ∧ (serveAbort tag m p s).due = s.due ∧ (serveAbort tag m p s).pending = s.pending := by
  refine ⟨?_, ?_, ?_, ?_, ?_, ?_, ?_, ?_⟩ <;>
    (unfold serveAbort; (try dsimp only); (repeat' split) <;> simp)

@[simp] theorem serveCredit_keeps (tag : Tag) (i a : Byte) (s : State) :
    (serveCredit tag i a s).inputs = s.inputs ∧ (serveCredit tag i a s).tables = s.tables
    ∧ (serveCredit tag i a s).matrix = s.matrix ∧ (serveCredit tag i a s).engine = s.engine
    ∧ (serveCredit tag i a s).claims = s.claims ∧ (serveCredit tag i a s).runs = s.runs
    ∧ (serveCredit tag i a s).lanes = s.lanes ∧ (serveCredit tag i a s).taps = s.taps
    ∧ (serveCredit tag i a s).counters = s.counters ∧ (serveCredit tag i a s).protection = s.protection
    ∧ (serveCredit tag i a s).freeCount = s.freeCount ∧ (serveCredit tag i a s).due = s.due
    ∧ (serveCredit tag i a s).pending = s.pending := by
  refine ⟨?_, ?_, ?_, ?_, ?_, ?_, ?_, ?_, ?_, ?_, ?_, ?_, ?_⟩ <;>
    (unfold serveCredit; (try dsimp only); (repeat' split) <;> simp)

@[simp] theorem serveReadSite_keeps (tag : Tag) (m : SiteMask) (s : State) :
    (serveReadSite tag m s).inputs = s.inputs ∧ (serveReadSite tag m s).tables = s.tables
    ∧ (serveReadSite tag m s).matrix = s.matrix ∧ (serveReadSite tag m s).engine = s.engine
    ∧ (serveReadSite tag m s).claims = s.claims ∧ (serveReadSite tag m s).runs = s.runs
    ∧ (serveReadSite tag m s).results = s.results ∧ (serveReadSite tag m s).lanes = s.lanes
    ∧ (serveReadSite tag m s).taps = s.taps ∧ (serveReadSite tag m s).counters = s.counters
    ∧ (serveReadSite tag m s).protection = s.protection ∧ (serveReadSite tag m s).freeCount = s.freeCount
    ∧ (serveReadSite tag m s).due = s.due ∧ (serveReadSite tag m s).pending = s.pending := by
  refine ⟨?_, ?_, ?_, ?_, ?_, ?_, ?_, ?_, ?_, ?_, ?_, ?_, ?_, ?_⟩ <;>
    (rfl)

@[simp] theorem serveResetRun_keeps (tag : Tag) (s : State) :
    (serveResetRun tag s).inputs = s.inputs ∧ (serveResetRun tag s).tables = s.tables
    ∧ (serveResetRun tag s).matrix = s.matrix ∧ (serveResetRun tag s).protection = s.protection
    ∧ (serveResetRun tag s).due = s.due ∧ (serveResetRun tag s).pending = s.pending := by
  refine ⟨?_, ?_, ?_, ?_, ?_, ?_⟩ <;>
    (unfold serveResetRun; (try dsimp only); (repeat' split) <;> simp)

@[simp] theorem serveResetFull_keeps (tag : Tag) (s : State) :
    (serveResetFull tag s).inputs = s.inputs ∧ (serveResetFull tag s).tables = s.tables
    ∧ (serveResetFull tag s).matrix = s.matrix ∧ (serveResetFull tag s).engine = s.engine
    ∧ (serveResetFull tag s).claims = s.claims ∧ (serveResetFull tag s).runs = s.runs
    ∧ (serveResetFull tag s).results = s.results ∧ (serveResetFull tag s).taps = s.taps
    ∧ (serveResetFull tag s).protection = s.protection ∧ (serveResetFull tag s).freeCount = s.freeCount
    ∧ (serveResetFull tag s).due = s.due ∧ (serveResetFull tag s).pending = s.pending := by
  simp [serveResetFull]

@[simp] theorem serve_keeps (tag : Tag) (r : Request) (s : State) :
    (serve tag r s).inputs = s.inputs ∧ (serve tag r s).due = s.due ∧ (serve tag r s).pending = s.pending := by
  refine ⟨?_, ?_, ?_⟩ <;>
    (unfold serve; split <;> simp [serveWrite])

@[simp] theorem servePayload_keeps (tag : Tag) (p : List Byte) (s : State) :
    (servePayload tag p s).inputs = s.inputs ∧ (servePayload tag p s).due = s.due
    ∧ (servePayload tag p s).pending = s.pending := by
  refine ⟨?_, ?_, ?_⟩ <;>
    (unfold servePayload; (try dsimp only); (repeat' split) <;> simp)

@[simp] theorem takeRes_keeps (i : Site) (s : State) :
    ((takeRes i s).2).inputs = s.inputs ∧ ((takeRes i s).2).tables = s.tables ∧ ((takeRes i s).2).matrix = s.matrix
    ∧ ((takeRes i s).2).engine = s.engine ∧ ((takeRes i s).2).claims = s.claims ∧ ((takeRes i s).2).runs = s.runs
    ∧ ((takeRes i s).2).lanes = s.lanes ∧ ((takeRes i s).2).taps = s.taps ∧ ((takeRes i s).2).counters = s.counters
    ∧ ((takeRes i s).2).trunk = s.trunk ∧ ((takeRes i s).2).protection = s.protection
    ∧ ((takeRes i s).2).freeCount = s.freeCount ∧ ((takeRes i s).2).due = s.due ∧ ((takeRes i s).2).pending = s.pending := by
  refine ⟨?_, ?_, ?_, ?_, ?_, ?_, ?_, ?_, ?_, ?_, ?_, ?_, ?_, ?_⟩ <;>
    (rfl)

@[simp] theorem act_keeps (a : Activity) (s : State) :
    (act a s).inputs = s.inputs ∧ (act a s).tables = s.tables ∧ (act a s).taps = s.taps ∧ (act a s).freeCount = s.freeCount
    ∧ (act a s).pending = s.pending := by
  refine ⟨?_, ?_, ?_, ?_, ?_⟩ <;>
    (unfold act; (repeat' split) <;> simp)

end Sys2Proof.Machine
end

