-- ==== Sys2Proof/Laws/Schedule.lean ====
section
/-! SUPPORT. What an event can do: settling, taking requests, and the principles by which a property is shown to be kept. -/

namespace Sys2Proof.Machine

/-! ### Quiet states -/

/-- Where every commit is held, none is taken. -/
theorem takeUnheld_of_held {s : State} {l : List Commit} (h : ∀ c ∈ l, held s c = true) : takeUnheld s l = none := by
  induction l with
  | nil => rfl
  | cons c l ih =>
    simp only [List.mem_cons, forall_eq_or_imp] at h
    simp only [takeUnheld, h.1, if_true, ih h.2, Option.map_none]

/-- No hold timer runs out before a beginning where nothing can begin. -/
theorem lapseReady_of_unready {s : State} (h : engineReady s = false) : lapseReady s = false := by
  by_contra hc
  rw [Bool.not_eq_false] at hc
  simp only [lapseReady, Bool.and_eq_true] at hc
  obtain ⟨⟨h1, h2⟩, h3⟩ := hc
  simp only [engineReady, h1, h2, Bool.true_and, Bool.not_true, Bool.false_or, List.any_eq_false, Bool.not_eq_true',
    Bool.not_eq_false] at h
  rw [takeUnheld_of_held h] at h3
  cases h3

/-- Which commit is taken depends on which are held. -/
theorem takeUnheld_congr {s t : State} (h : ∀ c, held t c = held s c) (l : List Commit) : takeUnheld t l = takeUnheld s l := by
  induction l with
  | nil => rfl
  | cons c l ih => simp only [takeUnheld, h, ih]

/-- The count of free choices readies nothing. -/
theorem activities_freeCount (s : State) (n : Nat) : activities { s with freeCount := n } = activities s := by
  have h : lapseReady { s with freeCount := n } = lapseReady s := by
    unfold lapseReady
    rw [takeUnheld_congr (s := s) (t := { s with freeCount := n }) (fun _ => rfl)]
  unfold activities
  rw [h]
  rfl

theorem activities_of_quiet {s : State} (h : s.Quiet) : activities s = [] := by
  simp [activities, h.engine, lapseReady_of_unready h.engine, h.drain, h.due, h.sites]

theorem quiet_of_activities {s : State} (h : activities s = []) : s.Quiet := by
  simp only [activities, List.append_eq_nil_iff, List.map_eq_nil_iff, List.filter_eq_nil_iff, List.mem_finRange, true_implies,
    Bool.not_eq_true, List.range_eq_nil] at h
  obtain ⟨⟨⟨⟨h1, h2⟩, -⟩, h3⟩, h4⟩ := h
  refine ⟨h1, ?_, ?_, List.length_eq_zero_iff.mp h4⟩
  · by_contra hc
    simp [hc] at h2
  · by_contra hc
    simp [hc] at h3

/-- Settling leaves a quiet state as it is. -/
theorem settle_of_quiet {s : State} (h : s.Quiet) (n : Nat) : settle n s = s := by
  cases n with
  | zero => rfl
  | succ n => simp [settle, activities_of_quiet h]

/-- What a step's readiness depends on. -/
theorem siteReady_congr {s t : State} {i : Site} (hr : t.runs[i].ctx = s.runs[i].ctx) (hs : t.runs[i].state = s.runs[i].state)
    (hc : t.claims.records = s.claims.records) (hq : t.engine.queue = s.engine.queue) (hf : t.engine.flight = s.engine.flight)
    (hl : t.results[i].records.length = s.results[i].records.length) : siteReady t i = siteReady s i := by
  simp only [siteReady, State.applying, hr, hs, hc, hq, hf, hl]

/-- A step's readiness does not look at its timers and flags. -/
theorem siteReady_map {s t : State} {i : Site} {g : StepContext → StepContext}
    (hg : ∀ c, (g c).phase = c.phase ∧ (g c).entry = c.entry ∧ (g c).total = c.total ∧ (g c).placed = c.placed)
    (hr : t.runs[i].ctx = s.runs[i].ctx.map g) (hs : t.runs[i].state = s.runs[i].state)
    (hc : t.claims.records = s.claims.records) (ha : t.applying i = s.applying i)
    (hl : t.results[i].records.length = s.results[i].records.length) : siteReady t i = siteReady s i := by
  simp only [siteReady, hr, hs, hc, ha, hl]
  cases s.runs[i].ctx with
  | none => rfl
  | some c => simp only [Option.map_some, (hg c).1, (hg c).2.1, (hg c).2.2.1, (hg c).2.2.2]

theorem live_congr {s t : State} (ht : t.tables.channels = s.tables.channels) : t.live = s.live := by
  simp only [State.live, ht]

theorem guarded_congr {s t : State} (ht : t.tables.channels = s.tables.channels) (hc : t.claims.records = s.claims.records)
    (o : Option Site) : t.guarded o = s.guarded o := by
  simp only [State.guarded, ht, hc]

theorem touched_congr {s t : State} (hp : t.tables.patches = s.tables.patches) (hs : t.tables.sites = s.tables.sites)
    (hm : t.matrix.image = s.matrix.image) (c : Commit) : touched t c = touched s c := by
  simp only [touched, siteCrosspoints, hp, hs, hm]

theorem held_congr {s t : State} (hch : t.tables.channels = s.tables.channels) (hp : t.tables.patches = s.tables.patches)
    (hs : t.tables.sites = s.tables.sites) (hm : t.matrix.image = s.matrix.image) (hc : t.claims.records = s.claims.records)
    (c : Commit) : held t c = held s c := by
  simp only [held, touched_congr hp hs hm, live_congr hch, guarded_congr hch hc]

/-- A state that agrees with a quiet one wherever readiness looks is quiet. -/
theorem State.Quiet.congr {s t : State} (h : s.Quiet) (hr : ∀ i : Site, t.runs[i].ctx = s.runs[i].ctx)
    (hs : ∀ i : Site, t.runs[i].state = s.runs[i].state) (hc : t.claims.records = s.claims.records)
    (hq : t.engine.queue = s.engine.queue) (hf : t.engine.flight = s.engine.flight) (ho : t.engine.openings = s.engine.openings)
    (hl : ∀ i : Site, t.results[i].records.length = s.results[i].records.length)
    (hch : t.tables.channels = s.tables.channels) (hp : t.tables.patches = s.tables.patches) (hst : t.tables.sites = s.tables.sites)
    (hm : t.matrix.image = s.matrix.image) (hi : t.trunk.input = s.trunk.input) (hd : t.due = s.due)
    (hcl : t.trunk.closed = s.trunk.closed := by rfl) : t.Quiet where
  sites i := by rw [siteReady_congr (hr i) (hs i) hc hq hf (hl i)]; exact h.sites i
  engine := by
    have := h.engine
    simp only [engineReady, hq, hf, ho, held_congr hch hp hst hm hc] at this ⊢
    exact this
  drain := by
    have := h.drain
    simp only [drainReady, hi, hcl] at this ⊢
    exact this
  due := hd.trans h.due

/-- With no commit in the queue, only an opening can make the engine ready. -/
theorem engineReady_of_empty {s : State} (hq : s.engine.queue = []) (ho : s.engine.openings = []) : engineReady s = false := by
  simp [engineReady, hq, ho]

theorem engineReady_of_flight {s : State} {t : Transition} (hf : s.engine.flight = some t) : engineReady s = false := by
  simp [engineReady, hf]

theorem drainReady_of_empty {s : State} (hi : s.trunk.input = []) : drainReady s = false := by
  simp [drainReady, hi]

/-- A site without a running step is not ready. -/
theorem siteReady_of_none {s : State} {i : Site} (h : s.runs[i].ctx = none) : siteReady s i = false := by
  simp only [siteReady, h]

/-! ### Settling -/

theorem freePick_mem {α : Type} (a : α) (l : List α) (n : Nat) : (freePick a l n).1 ∈ a :: l := by
  unfold freePick
  split
  · simp
  · rename_i b t
    have : Config.freeChoice n % (t.length + 2) < (a :: b :: t).length := by
      simp only [List.length_cons]
      exact Nat.mod_lt _ (by omega)
    simp only [List.getD_eq_getElem?_getD, List.getElem?_eq_getElem this, Option.getD_some]
    exact List.getElem_mem this

/-- A property that every activity keeps, and that the count of free choices does not enter, is kept by settling. -/
theorem settle_keeps {P : State → Prop} (hfree : ∀ s n, P s → P { s with freeCount := n })
    (hact : ∀ s a, a ∈ activities s → P s → P (act a s)) : ∀ n s, P s → P (settle n s) := by
  intro n
  induction n with
  | zero => exact fun s h => h
  | succ n ih =>
    intro s h
    unfold settle
    split
    · exact h
    · rename_i a l he
      refine ih _ (hact _ _ ?_ (hfree _ _ h))
      rw [activities_freeCount]
      rw [he]
      exact freePick_mem _ _ _

/-- The management unit takes the head of the input buffer, and nothing else changes. -/
theorem takeRequest_spec {s t : State} {f : Frame} (h : takeRequest s = some (f, t)) :
    ∃ rest, s.trunk.input = f :: rest ∧ f.forPart = true ∧ s.trunk.responses = [] ∧ s.trunk.closed = false
      ∧ t = s.onTrunk fun k => { k with input := rest } := by
  unfold takeRequest at h
  split at h
  · cases h
  · rename_i g rest hi
    split at h
    · rename_i hc
      cases h
      exact ⟨rest, hi, hc.1, hc.2.1, hc.2.2, rfl⟩
    · cases h

theorem takeRequest_of_empty {s : State} (h : s.trunk.input = []) : takeRequest s = none := by
  simp [takeRequest, h]

theorem takeRequest_of_responses {s : State} (h : s.trunk.responses ≠ []) : takeRequest s = none := by
  unfold takeRequest
  split
  · rfl
  · simp [h]

/-- A property that settling keeps and that serving a taken request keeps is kept by the run of an event. -/
theorem runOn_keeps {P : State → Prop} (hsettle : ∀ n s, P s → P (settle n s))
    (hserve : ∀ s f t, takeRequest s = some (f, t) → P s → P (servePayload f.tag f.payload t)) : ∀ n s, P s → P (runOn n s) := by
  intro n
  induction n with
  | zero => exact fun s h => h
  | succ n ih =>
    intro s h
    simp only [runOn]
    split
    · exact hsettle _ _ h
    · rename_i f t ht
      exact ih _ (hserve _ _ _ ht (hsettle _ _ h))

/-- A property that every activity and every request keeps is kept by the run of an event. -/
theorem runEvent_keeps {P : State → Prop} (hfree : ∀ s n, P s → P { s with freeCount := n })
    (hact : ∀ s a, a ∈ activities s → P s → P (act a s))
    (hserve : ∀ s f t, takeRequest s = some (f, t) → P s → P (servePayload f.tag f.payload t)) (s : State) (h : P s) :
    P (runEvent s) :=
  runOn_keeps (settle_keeps hfree hact) hserve _ _ h

/-- An event always leads to a next state. -/
theorem event_next (f : State → State) (s : State) :
    event f s = .next (if s.inputs.rstLow then s else runEvent (f s)) := by
  unfold event
  split <;> simp_all

theorem event_of_running {f : State → State} {s : State} (h : s.inputs.rstLow = false) : event f s = .next (runEvent (f s)) := by
  simp [event, h]

theorem expiry_next (left : Option Nat) (f : State → State) (s : State) :
    expiry left f s = .next (match left with
      | none => s
      | some d => if s.inputs.rstLow then s else runEvent (f (s.elapse d))) := by
  unfold expiry
  split
  · rfl
  · exact event_next _ _

theorem expiry_of_running {d : Nat} {f : State → State} {s : State} (h : s.inputs.rstLow = false) :
    expiry (some d) f s = .next (runEvent (f (s.elapse d))) := by
  simp [expiry, event, h]

/-! ### Events that end at once -/

theorem runOn_of_settled {n : Nat} {s : State} (h : s.Quiet) (ht : takeRequest s = none) : runOn n s = s := by
  cases n with
  | zero => rfl
  | succ n => simp [runOn, settle_of_quiet h, ht]

/-- An event whose first effect leaves nothing to do ends with it. -/
theorem runEvent_of_quiet {s : State} (h : s.Quiet) (ht : takeRequest s = none) : runEvent s = s := runOn_of_settled h ht

/-- The arrival of a management frame at a listening part. -/
theorem arrive_of_listening {s : State} {tag : Tag} {p : List Byte} (hl : s.Listening) (hp : p.length ≤ 1024) :
    arrive tag p s = { s.heard with trunk := { s.trunk with input := [mgtFrame tag p] } } := by
  have h1 : ¬ ((mgtFrame tag p).kind = Kind.idle) := by simp [mgtFrame]
  have h2 : s.trunk.input.length < Config.inputPlaces := by rw [hl.input]; decide
  unfold arrive acceptFrame
  rw [if_pos hp]
  refine ((if_neg h1).trans (if_pos h2)).trans ?_
  have h3 : ∀ n : Nat, n * 100 * Config.ms = n * 100000 := fun n => by simp only [Config.ms]; omega
  simp only [State.onTrunk, State.onProtection, hl.input, h3, State.heard, List.nil_append]

theorem Trunk.withoutInput {k : Trunk} (h : k.input = []) : { k with input := [] } = k := by
  cases k
  simp_all

theorem heard_quiet {s : State} (h : s.Quiet) : s.heard.Quiet :=
  h.congr (fun _ => rfl) (fun _ => rfl) rfl rfl rfl rfl (fun _ => rfl) rfl rfl rfl rfl rfl rfl

/-- The management unit of a listening, quiet part serves a request that arrives in the same event, and then the part settles. -/
theorem runEvent_arrive {s : State} {tag : Tag} {p : List Byte} (hq : s.Quiet) (hl : s.Listening) (hp : p.length ≤ 1024) :
    runEvent (arrive tag p s) = runOn 1 (servePayload tag p s.heard) := by
  have hm : (mgtFrame tag p).forPart = true := by simp [Frame.forPart, mgtFrame]
  rw [arrive_of_listening hl hp]
  have hq' : ({ s.heard with trunk := { s.trunk with input := [mgtFrame tag p] } } : State).Quiet := by
    refine ⟨?_, ?_, ?_, hq.due⟩
    · intro i
      exact (siteReady_congr rfl rfl rfl rfl rfl rfl).trans (hq.sites i)
    · exact hq.engine
    · simp [drainReady, hm]
  have ht : takeRequest { s.heard with trunk := { s.trunk with input := [mgtFrame tag p] } } = some (mgtFrame tag p, s.heard) := by
    refine (if_pos ⟨hm, hl.responses, hl.opened⟩).trans ?_
    have : ({ s.trunk with input := [] } : Trunk) = s.heard.trunk := Trunk.withoutInput hl.input
    simp only [State.onTrunk, this]
  simp only [runEvent, List.length_cons, List.length_nil]
  rw [runOn, settle_of_quiet hq', ht]
  rfl

/-- A request at a listening, quiet part whose serving leaves nothing to do. -/
theorem event_arrive {s u : State} {tag : Tag} {p : List Byte} (hq : s.Quiet) (hl : s.Listening) (hp : p.length ≤ 1024)
    (hs : servePayload tag p s.heard = u) (hu : u.Quiet) (hi : u.trunk.input = []) : event (arrive tag p) s = .next u := by
  rw [event_of_running hl.running, runEvent_arrive hq hl hp, hs, runOn_of_settled hu (takeRequest_of_empty hi)]

/-- A response placed is an answer. -/
theorem respond_answer (tag : Tag) (code : Byte) (st : Status) (data : List Byte) (s : State) :
    respond tag code st data s = s.answer tag (code :: st.code :: if st = .ok then data else []) := rfl

/-- Placing an answer changes the response queue alone. -/
theorem State.Quiet.answer {s : State} (h : s.Quiet) (tag : Tag) (p : List Byte) : (s.answer tag p).Quiet :=
  h.congr (fun _ => rfl) (fun _ => rfl) rfl rfl rfl rfl (fun _ => rfl) rfl rfl rfl rfl rfl rfl

/-- Raising an event, in the terms of the statements. -/
theorem raise_eventRaised (e : Event) (s : State) : raise e s = s.eventRaised e := by
  unfold raise State.eventRaised State.onTrunk
  by_cases h : s.trunk.events.length < 16
  · have : ¬ (16 ≤ s.trunk.events.length) := by omega
    simp [Config.eventPlaces, h, this]
  · have : 16 ≤ s.trunk.events.length := by omega
    simp [Config.eventPlaces, h, this]

/-- Raising an event changes the trunk's event store alone. -/
theorem State.Quiet.eventRaised {s : State} (h : s.Quiet) (e : Event) : (s.eventRaised e).Quiet :=
  h.congr (fun _ => rfl) (fun _ => rfl) rfl rfl rfl rfl (fun _ => rfl) rfl rfl rfl rfl rfl rfl

/-- The passing of time readies nothing. -/
theorem State.Quiet.elapse {s : State} (h : s.Quiet) (d : Nat) : (s.elapse d).Quiet where
  sites i := by
    rw [siteReady_map (g := StepContext.elapse d) (s := s) (t := s.elapse d) (fun c => ⟨rfl, rfl, rfl, rfl⟩) (by simp [State.elapse, Run.elapse])
      (by simp [State.elapse, Run.elapse]) rfl _ rfl]
    · exact h.sites i
    · simp only [State.applying, State.elapse_engine, List.any_map, Function.comp_def, Commit.elapse]
      cases s.engine.flight <;> rfl
  engine := by
    have := h.engine
    have hh : ∀ c, held (s.elapse d) (c.elapse d) = held s c := by
      intro c
      rw [held_congr (s := s) rfl rfl rfl rfl rfl]
      rfl
    unfold engineReady at this ⊢
    simp [State.elapse, Function.comp_def] at this ⊢
    intro hf
    refine ⟨(this hf).1, fun c hc => ?_⟩
    have := (this hf).2 c hc
    rw [← hh c] at this
    exact this
  drain := h.drain
  due := h.due

end Sys2Proof.Machine
end

