-- ==== Sys2Proof/Laws/Sets.lean ====
section
/-! SUPPORT. Sets of buses and of sites, and flag bytes: what their bits say. -/

namespace Sys2Proof.Machine

/-- A byte made of eight flags has them as its bits. -/
theorem flags_getLsbD (p : Fin 8 → Bool) (b : Fin 8) :
    (BitVec.ofNat 8 ((List.finRange 8).foldr (fun b n => 2 * n + (p b).toNat) 0)).getLsbD b = p b := by
  have hl : List.finRange 8 = [0, 1, 2, 3, 4, 5, 6, 7] := by decide
  rw [hl]
  simp only [List.foldr]
  have h : ∀ a0 a1 a2 a3 a4 a5 a6 a7 : Bool, ∀ k : Fin 8,
      (BitVec.ofNat 8 (2 * (2 * (2 * (2 * (2 * (2 * (2 * (2 * 0 + a7.toNat) + a6.toNat) + a5.toNat) + a4.toNat) + a3.toNat)
        + a2.toNat) + a1.toNat) + a0.toNat)).getLsbD k = [a0, a1, a2, a3, a4, a5, a6, a7].getD k false := by
    decide +kernel
  rw [h]
  fin_cases b <;> rfl

/-- Bus b is in the set of the buses with a property exactly when it has it. -/
@[simp] theorem busSet_getLsbD (p : Bus → Bool) (b : Bus) : (busSet p).getLsbD b = p b := flags_getLsbD p b

/-- Site i is in the mask of the sites with a property exactly when it has it. -/
@[simp] theorem siteMask_getLsbD (p : Site → Bool) (i : Site) : (siteMask p).getLsbD i = p i := flags_getLsbD p i

/-- Two sets of buses, or of sites, with the same members are the same. -/
theorem flags_ext {x y : BitVec 8} (h : ∀ b : Fin 8, x.getLsbD b = y.getLsbD b) : x = y :=
  BitVec.eq_of_getLsbD_eq fun i hi => h ⟨i, hi⟩

end Sys2Proof.Machine
end

