-- ==== Sys2Proof/Laws/Step.lean ====
section
/-! SUPPORT. How a property of the part is shown to be kept by every step: once for each first effect, each activity and each request. -/

namespace Sys2Proof.Machine

/-- A request's command is the arrival of its frame (log 2). -/
theorem exec_request {c : Instr} {tag : Tag} {r : Request} (h : c.request = some (tag, r)) (s : State) :
    exec c s = event (arrive tag r.payload) s := by
  cases c <;> cases h <;> rfl

/-- A request at a quiet, listening part whose serving leaves nothing to do: the command answers the state served. -/
theorem exec_served {c : Instr} {tag : Tag} {r : Request} {s u : State} (hr : c.request = some (tag, r)) (hq : s.Quiet)
    (hl : s.Listening) (hp : r.payload.length ≤ 1024) (hread : readRequest r.payload = some r) (hs : serve tag r s.heard = u)
    (hu : u.Quiet) (hi : u.trunk.input = []) : exec c s = .next u := by
  rw [exec_request hr]
  refine event_arrive hq hl hp ?_ hu hi
  unfold servePayload
  rw [hread]
  exact hs

/-- Which store the arbiter takes the frame from, and what leaves it (spec R176). -/
theorem choose_cases {s t : State} {f : Frame} (h : choose s = some (f, t)) :
    (∃ rest, s.trunk.responses = f :: rest ∧ t = s.onTrunk fun k => { k with responses := rest })
    ∨ (s.trunk.responses = [] ∧ ∃ e rest, s.trunk.events = e :: rest ∧ f = eventFrame e
        ∧ t = s.onTrunk fun k => { k with events := rest })
    ∨ (s.trunk.responses = [] ∧ s.trunk.events = [] ∧ ∃ b rest, s.trunk.bounces = b :: rest ∧ f = bounceFrame b
        ∧ t = s.onTrunk fun k => { k with bounces := rest })
    ∨ (s.trunk.responses = [] ∧ s.trunk.events = [] ∧ s.trunk.bounces = [] ∧ ∃ l rest, nextUpLane s = some l
        ∧ s.lanes[l].upBuffer = f :: rest
        ∧ t = (s.onLane l fun x => { x with upBuffer := rest }).onTrunk fun k => { k with lastLane := l })
    ∨ (s.trunk.responses = [] ∧ s.trunk.events = [] ∧ s.trunk.bounces = [] ∧ nextUpLane s = none ∧ ∃ i, nextDueSite s = some i
        ∧ f = (takeRes i s).1 ∧ t = (takeRes i s).2.onTrunk fun k => { k with lastSite := i }) := by
  unfold choose at h
  split at h
  · rename_i g rest hr
    cases h
    exact .inl ⟨rest, hr, rfl⟩
  · rename_i hr
    split at h
    · rename_i e rest he
      cases h
      exact .inr (.inl ⟨hr, e, rest, he, rfl, rfl⟩)
    · rename_i he
      split at h
      · rename_i b rest hb
        cases h
        exact .inr (.inr (.inl ⟨hr, he, b, rest, hb, rfl, rfl⟩))
      · rename_i hb
        split at h
        · rename_i l hl
          unfold takeUp at h
          split at h
          · cases h
          · rename_i g rest hu
            cases h
            exact .inr (.inr (.inr (.inl ⟨hr, he, hb, l, rest, hl, hu, rfl⟩)))
        · rename_i hl
          split at h
          · rename_i i hi
            cases h
            exact .inr (.inr (.inr (.inr ⟨hr, he, hb, hl, i, hi, rfl, rfl⟩)))
          · cases h

/-- A choice of the arbiter changes the trunk, the lanes' up buffers and the result queues alone. -/
@[simp] theorem transmit_keeps (s : State) :
    (transmit s).inputs = s.inputs ∧ (transmit s).tables = s.tables ∧ (transmit s).matrix = s.matrix
    ∧ (transmit s).engine = s.engine ∧ (transmit s).claims = s.claims ∧ (transmit s).runs = s.runs ∧ (transmit s).taps = s.taps
    ∧ (transmit s).counters = s.counters ∧ (transmit s).protection = s.protection ∧ (transmit s).freeCount = s.freeCount
    ∧ (transmit s).due = s.due ∧ (transmit s).pending = s.pending := by
  unfold transmit
  split
  · rename_i f t h
    rcases choose_cases h with ⟨_, _, rfl⟩ | ⟨_, _, _, _, _, rfl⟩ | ⟨_, _, _, _, _, _, rfl⟩ | ⟨_, _, _, _, _, _, _, rfl⟩
      | ⟨_, _, _, _, _, _, _, rfl⟩ <;> exact ⟨rfl, rfl, rfl, rfl, rfl, rfl, rfl, rfl, rfl, rfl, rfl, rfl⟩
  · exact ⟨rfl, rfl, rfl, rfl, rfl, rfl, rfl, rfl, rfl, rfl, rfl, rfl⟩

/-- What must be shown of a property for every step to keep it. -/
structure Kept (P : State → Prop) : Prop where
  free : ∀ s n, P s → P { s with freeCount := n }
  pending : ∀ s q, P s → P { s with pending := q }
  elapse : ∀ d s, P s → P (s.elapse d)
  act : ∀ s a, a ∈ activities s → P s → P (act a s)
  serve : ∀ s f t, takeRequest s = some (f, t) → P s → P (servePayload f.tag f.payload t)
  accept : ∀ f s, P s → P (acceptFrame f s)
  bad : ∀ s, P s → P (countBad s)
  inputs : ∀ f s, P s → P (s.onInputs f)
  reset : ∀ s, P s → P (fullReset s)
  transmit : ∀ s, P s → P (transmit s)
  cause : ∀ c s, P s → P (raiseCause c s)
  silence : ∀ s, P s → P (s.onProtection fun p => { p with timer := none })
  board : ∀ i l s, P s → P (raise (.board i l) s)
  remove : ∀ i s, P s → P (removeBoard i s)
  breakEnd : ∀ t s d, s.engine.flight = some t → t.phase = .breaking → P s → P (endBreak t (s.elapse d))
  makeEnd : ∀ t s d, s.engine.flight = some t → t.phase = .making → P s → P (completeFlight t (s.elapse d))
  hold : ∀ p s, P s → P (expireHold p s)
  claim : ∀ i s, P s → P (failStep i .claimTimeout (leaveWaits i s))
  ctx : ∀ i s, P s → P (s.onCtx i fun c => { c with phase := .trigger, settleTimer := none })
  collect : ∀ i c s, P s → P (collectExpired i c s)
  lane : ∀ l b bytes s, P s → P (receiveLane l b bytes s)
  card : ∀ l c s, P s → P (s.onLane l fun x => { x with card := c })
  changed : ∀ l c s, P s → P (cardChanged l c s)
  failed : ∀ l s, P s → P (failAttempt l s)
  lost : ∀ l s, P s → P (raise (laneEvent (enterRetryWait l 0 s) l) (enterRetryWait l 0 s))
  wake : ∀ l n s, P s → P (enterWaking l n s)
  drained : ∀ l s, P s → P (endDraining l s)
  loop : ∀ l s, P s → P (s.onLane l fun x => { x with loopStatus := .bad, timer := none })
  send : ∀ l s, P s → P (sendNext l s)

namespace Kept

variable {P : State → Prop} (h : Kept P)

include h

theorem runEvent {s : State} (hs : P s) : P (runEvent s) :=
  runEvent_keeps h.free h.act h.serve s hs

theorem event {f : State → State} {s t : State} (hf : P s → P (f s)) (hs : P s) (he : event f s = .next t) : P t := by
  rw [event_next] at he
  cases he
  split
  · exact hs
  · exact h.runEvent (hf hs)

theorem expiry {left : Option Nat} {f : State → State} {s t : State} (hf : ∀ d, left = some d → P s → P (f (s.elapse d)))
    (hs : P s) (he : expiry left f s = .next t) : P t := by
  cases left with
  | none =>
    cases he
    exact hs
  | some d => exact h.event (f := fun s => f (s.elapse d)) (hf d rfl) hs he

theorem arrive (tag : Tag) (p : List Byte) {s : State} (hs : P s) : P (arrive tag p s) := by
  unfold Machine.arrive
  split
  · exact h.accept _ _ hs
  · exact h.bad _ hs

theorem request {tag : Tag} {r : Request} {s t : State} (hs : P s) (he : request tag r s = .next t) : P t :=
  h.event (f := Machine.arrive tag r.payload) (h.arrive _ _) hs he

theorem exec {c : Instr} {s t : State} (hs : P s) (he : exec c s = .next t) : P t := by
  cases c
  case trunkFrameReceive b =>
    refine h.event (f := receiveTrunk b) (fun hs => ?_) hs he
    unfold receiveTrunk
    split
    · exact h.bad _ hs
    · split
      · exact h.accept _ _ hs
      · exact h.bad _ hs
  case badRequest tag p => exact h.event (f := Machine.arrive tag p) (h.arrive _ _) hs he
  case resetFullExecute =>
    simp only [Machine.exec, execResetFullExecute] at he
    split at he <;> cases he
    · exact h.reset _ hs
    · exact hs
  case powerOn => cases he; exact h.reset _ hs
  case rstNAssert => cases he; exact h.reset _ (h.inputs _ _ hs)
  case rstNRelease =>
    simp only [Machine.exec, execRstNRelease] at he
    split at he <;> cases he
    · exact h.reset _ (h.inputs _ _ hs)
    · exact hs
  case transmitChoice =>
    simp only [Machine.exec, execTransmitChoice] at he
    split at he
    · cases he; exact hs
    · exact h.event (f := Machine.transmit) (h.transmit _) hs he
  case safeReqAssert =>
    simp only [Machine.exec, execSafeReqAssert] at he
    split at he
    · cases he; exact hs
    · exact h.event (f := raiseCause causeInput) (h.cause _ _) (h.inputs _ _ hs) he
  case safeReqRelease => cases he; exact h.inputs _ _ hs
  case silenceTimerExpire =>
    exact h.expiry (f := fun s => raiseCause causeSilence (s.onProtection fun p => { p with timer := none }))
      (fun d _ hs => h.cause _ _ (h.silence _ (h.elapse _ _ hs))) hs he
  case presentChange i l =>
    simp only [Machine.exec, execPresentChange] at he
    split at he
    · cases he; exact hs
    · refine h.event (f := fun s => let t := raise (.board i l) s
                                   if l then t else removeBoard i t) (fun hs => ?_) (h.inputs _ _ hs) he
      simp only
      split
      · exact h.board _ _ _ hs
      · exact h.remove _ _ (h.board _ _ _ hs)
  case breakPhaseEnd =>
    simp only [Machine.exec, execBreakPhaseEnd] at he
    split at he
    · cases he; exact hs
    · rename_i t ht
      split at he
      · rename_i hp
        exact h.expiry (f := endBreak t) (fun d _ hs => h.breakEnd t _ d ht hp hs) hs he
      · cases he; exact hs
  case makePhaseEnd =>
    simp only [Machine.exec, execMakePhaseEnd] at he
    split at he
    · cases he; exact hs
    · rename_i t ht
      split at he
      · rename_i hp
        exact h.expiry (f := completeFlight t) (fun d _ hs => h.makeEnd t _ d ht hp hs) hs he
      · cases he; exact hs
  case holdTimerExpire p => exact h.expiry (f := expireHold p) (fun d _ hs => h.hold _ _ (h.elapse _ _ hs)) hs he
  case claimWaitTimerExpire i => exact h.expiry (f := fun s => failStep i .claimTimeout (leaveWaits i s)) (fun d _ hs => h.claim _ _ (h.elapse _ _ hs)) hs he
  case settleTimerEnd i =>
    exact h.expiry (f := State.onCtx i fun c => { c with phase := .trigger, settleTimer := none })
      (fun d _ hs => h.ctx _ _ (h.elapse _ _ hs)) hs he
  case collectTimerExpire i =>
    refine h.expiry
      (f := fun s => match s.runs[i].ctx with
        | some c => collectExpired i c s
        | none => s) (fun d _ hs => ?_) hs he
    split
    · exact h.collect _ _ _ (h.elapse _ _ hs)
    · exact h.elapse _ _ hs
  case laneFrameReceive l b bytes => exact h.event (f := receiveLane l b bytes) (h.lane _ _ _ _) hs he
  case cardConditionChange l c =>
    simp only [Machine.exec, execCardConditionChange] at he
    split at he
    · cases he; exact hs
    · split at he
      · cases he; exact h.card _ _ _ hs
      · exact h.event (f := cardChanged l c) (h.changed _ _ _) hs he
  case wakeWindowExpire l => exact h.expiry (f := failAttempt l) (fun d _ hs => h.failed _ _ (h.elapse _ _ hs)) hs he
  case alignWindowExpire l => exact h.expiry (f := failAttempt l) (fun d _ hs => h.failed _ _ (h.elapse _ _ hs)) hs he
  case lostWindowExpire l =>
    exact h.expiry (f := fun s => raise (laneEvent (enterRetryWait l 0 s) l) (enterRetryWait l 0 s)) (fun d _ hs => h.lost _ _ (h.elapse _ _ hs)) hs he
  case retryTimeExpire l =>
    exact h.expiry (f := fun s => enterWaking l s.lanes[l].attempts s) (fun d _ hs => h.wake _ _ _ (h.elapse _ _ hs)) hs he
  case drainLimitExpire l => exact h.expiry (f := endDraining l) (fun d _ hs => h.drained _ _ (h.elapse _ _ hs)) hs he
  case quietTimerReach l => exact h.expiry (f := endDraining l) (fun d _ hs => h.drained _ _ (h.elapse _ _ hs)) hs he
  case loopWindowExpire l =>
    exact h.expiry (f := State.onLane l fun x => { x with loopStatus := .bad, timer := none })
      (fun d _ hs => h.loop _ _ (h.elapse _ _ hs)) hs he
  case laneSendBegin l => exact h.event (f := sendNext l) (h.send _ _) hs he
  all_goals exact h.request hs he

/-- A property with all this is kept by every step. -/
theorem step {s t : State} (hs : P s) (he : step s = .next t) : P t := by
  unfold Machine.step at he
  split at he
  · cases he; exact h.elapse _ _ hs
  · exact h.exec (h.pending _ _ hs) he

end Kept

end Sys2Proof.Machine
end

