-- ==== Sys2Proof/Laws/Tables.lean ====
section
/-! SUPPORT. Which of the tables an operation can change. -/

namespace Sys2Proof.Machine

/-- The tables that the lanes never write: all but the channel table. -/
def Tables.fixed (t : Tables) :
    Vector RelayType 4 × Vector BusEntry 8 × Vector SiteEntry 8 × Vector InstrumentEntry 12 × Vector LimitEntry 512
      × Vector (List PatchOp) 256 × Vector StepEntry 1024 :=
  (t.relays, t.buses, t.sites, t.instruments, t.limits, t.patches, t.steps)

theorem Tables.fixed_of_eq {t u : Tables} (h : t = u) : t.fixed = u.fixed := h ▸ rfl

theorem Tables.buses_of_fixed {t u : Tables} (h : t.fixed = u.fixed) : t.buses = u.buses := congrArg (fun p => p.2.1) h

@[simp] theorem setOutputs_fixed (l : LaneId) (f : Fin 8 → Output → Output) (s : State) :
    (setOutputs l f s).tables.fixed = s.tables.fixed := rfl

@[simp] theorem leaveUp_fixed (l : LaneId) (s : State) : (leaveUp l s).tables.fixed = s.tables.fixed := by
  unfold leaveUp
  simp

@[simp] theorem enterLost_fixed (l : LaneId) (e : Option (Tag × Fin 8)) (s : State) : (enterLost l e s).tables.fixed = s.tables.fixed := by
  unfold enterLost
  simp

@[simp] theorem enterDraining_fixed (l : LaneId) (s : State) : (enterDraining l s).tables.fixed = s.tables.fixed := by
  unfold enterDraining
  dsimp only
  split <;> simp

@[simp] theorem setLane_fixed (l : LaneId) (d b : Bool) (s : State) : (setLane l d b s).tables.fixed = s.tables.fixed := by
  unfold setLane
  dsimp only
  split <;> (try split) <;> simp

@[simp] theorem cardChanged_fixed (l : LaneId) (c : CardCondition) (s : State) :
    (cardChanged l c s).tables.fixed = s.tables.fixed := by
  unfold cardChanged
  dsimp only
  split <;> (try split) <;> simp

@[simp] theorem countBadUp_fixed (l : LaneId) (s : State) : (countBadUp l s).tables.fixed = s.tables.fixed := by
  unfold countBadUp
  dsimp only
  split <;> simp

@[simp] theorem receiveStatus_fixed (l : LaneId) (f : Frame) (s : State) : (receiveStatus l f s).tables.fixed = s.tables.fixed := by
  unfold receiveStatus
  dsimp only
  split <;> (try split) <;> simp

@[simp] theorem receiveInstrument_fixed (l : LaneId) (f : Frame) (s : State) :
    (receiveInstrument l f s).tables.fixed = s.tables.fixed := by
  unfold receiveInstrument
  split
  · simp
  · split
    · simp
    · split <;> simp

@[simp] theorem receiveLane_fixed (l : LaneId) (b : Bool) (bytes : List Byte) (s : State) :
    (receiveLane l b bytes s).tables.fixed = s.tables.fixed := by
  unfold receiveLane
  dsimp only
  split
  · simp
  · simp
  · simp
  · split
    · simp
    · split <;> simp
  · simp
  · rfl

@[simp] theorem serveSetLanes_fixed (tag : Tag) (es : List LaneSetRaw) (s : State) :
    (serveSetLanes tag es s).tables.fixed = s.tables.fixed := by
  unfold serveSetLanes
  split
  · simp [refuse]
  · simp only [respond_keeps]
    refine foldl_keeps (fun s => s.tables.fixed) _ (fun s a => ?_) _ _
    split <;> simp

/-- What a write leaves alone when it is done, it leaves alone. -/
theorem writeAll_keeps {α β : Type} {p : State → β} (es : List α) (check : α → Option Status) (w : State → State) (s : State)
    (h : p (w s) = p s) : p (writeAll es check w s).2 = p s := by
  unfold writeAll
  split
  · rfl
  · split
    · rfl
    · exact h

/-- Only WRITE_BUS_TABLE writes the bus table. -/
theorem serve_buses (tag : Tag) (r : Request) (s : State) (h : ∀ es, r ≠ .writeBuses es) :
    (serve tag r s).tables.buses = s.tables.buses := by
  cases r
  case writeBuses es => exact absurd rfl (h es)
  case writeRelayTypes es => exact writeAll_keeps (p := fun s => s.tables.buses) es _ _ s rfl
  case writeSites es => exact writeAll_keeps (p := fun s => s.tables.buses) es _ _ s rfl
  case writeInstruments es => exact writeAll_keeps (p := fun s => s.tables.buses) es _ _ s rfl
  case writeChannels es => exact writeAll_keeps (p := fun s => s.tables.buses) es _ _ s (by simp)
  case writeLimits es => exact writeAll_keeps (p := fun s => s.tables.buses) es _ _ s rfl
  case writePatches es => exact writeAll_keeps (p := fun s => s.tables.buses) es _ _ s rfl
  case writeSteps es => exact writeAll_keeps (p := fun s => s.tables.buses) es _ _ s rfl
  case setLanes es => exact Tables.buses_of_fixed (serveSetLanes_fixed _ _ _)
  all_goals exact congrArg Tables.buses (by simp [serve, refuse])

end Sys2Proof.Machine
end

