-- ==== Sys2Proof/Tests/Slice0.lean ====
section
/-! SUPPORT. Tests with expected results from the spec's tables and worked examples, a refused term for each check of WellFormed, and
for each statement with hypotheses a case that meets them. -/

open Sys2Proof Sys2Proof.Machine

namespace Sys2Proof.Tests

-- Each test checked by a thread of its own would exceed the check's memory.
set_option Elab.async false

/-! ### States of the tests -/

/-- The state that a command leaves. -/
def after (c : Instr) (s : State) : State :=
  match exec c s with
  | .next t => t
  | _ => s

/-- A response of the part. -/
def rsp (tag : Tag) (payload : List Byte) : Frame :=
  { dest := 250, source := 240, kind := 0x41, flags := 0, tag := tag, payload := payload }

/-- The responses that a command leaves. -/
def answers (c : Instr) (s : State) : List Frame := (after c s).trunk.responses

/-- The part out of SAFE with every board present and no event waiting. -/
def bench : State :=
  { State.reset with
    inputs := { rstLow := false, safeReq := false, present := Vector.replicate 8 true }
    protection := { safe := false, causes := 0, openDone := true, setting := 10, timer := some 400000 }
    trunk := { State.reset.trunk with events := [] } }

/-- The crosspoint of a bus and a pin. -/
def cross (b : Bus) (p : Nat) : Crosspoints := BitVec.twoPow 3072 (384 * b + p)

/-- A state with the given image. -/
def wired (x : Crosspoints) (s : State) : State := { s with matrix := { image := x, chain := x, drivers := x } }

/-- A state with one lane changed. -/
def withLane (l : LaneId) (f : Lane → Lane) (s : State) : State := { s with lanes := s.lanes.set l (f s.lanes[l]) }

/-- A state with one site's run changed. -/
def withRun (i : Site) (f : Run → Run) (s : State) : State := { s with runs := s.runs.set i (f s.runs[i]) }

/-- A state with an instrument node on a lane that is UP. -/
def instrumentUp (l : LaneId) (node : Byte) (s : State) : State :=
  withLane l (fun x => { x with state := .up, demand := true, card := .stream })
    { s with
      tables := { s.tables with
        instruments := s.tables.instruments.set l { node := node, policy := none, channels := 2 } } }

/-- A state in which a site holds an instrument. -/
def holding (l : LaneId) (i : Site) (waits : List Site) (s : State) : State :=
  { s with claims := { s.claims with records := s.claims.records.set l { holder := some i, waits := waits } } }

/-- A step with an instrument that takes n + 1 samples. -/
def measuring (l : LaneId) (n : Nat) : StepEntry := { StepEntry.reset with instrument := some l, sampleCode := n, limit := some 9 }

/-- The context of a step that is in a phase. -/
def inPhase (e : StepEntry) (phase : Phase) : StepContext :=
  { index := 40, entry := e, phase := phase, cause := .ok, tag := none, attach := none, cal := none, samples := [], short := false,
    extra := false, disturbed := false, limit := none, placed := 0, anyFail := false, settleTimer := none, collectTimer := none }

/-- A site that runs its step of a context. -/
def running (i : Site) (c : StepContext) (s : State) : State :=
  withRun i (fun r => { r with state := .running, step := 40, number := 7, ctx := some c }) s

/-- Sample k of a reading. -/
def sample (raw : Int) : Sample := { raw := raw, overrange := false }

/-- The example of spec section 9.9: site 3 holds the meter of lane 2, node 12, and collects 4 samples with the tag 0xB011; tap 0
watches the meter. -/
def metering (taken : List Sample) : State :=
  let c : StepContext :=
    { inPhase { measuring 2 3 with collect := 50, mark := true } .collect with
      tag := some 0xB011, cal := some { offset := 120, gain := 16548, exponent := -6 }, samples := taken, collectTimer := some 44000 }
  let s := running 3 c (holding 2 3 [] (instrumentUp 2 12 bench))
  { withRun 3 (fun r => { r with seq := 17 }) s with
    taps := s.taps.set 0 { s.taps[0] with enabled := true, node := 12, notify := true }
    tables := { s.tables with
      limits := s.tables.limits.set 9 { low := 990000, high := 1020000, guard := 12000, mode := .both } } }

/-- A reading of the meter on channel 0. -/
def reading (tag : Tag) (channel : Byte) (samples : List (BitVec 24)) : List Byte :=
  ({ dest := 240, source := 12, kind := 0x20, flags := 0, tag := tag,
     payload := channel :: BitVec.ofNat 8 samples.length :: (samples.map fun x => 0 :: bytes3 x).flatten } : Frame).bytes

/-- An IDLE frame of the card of lane 5. -/
def cardIdle : List Byte := [0, 21, 0, 0, 0, 0, 0, 0, 0x7F, 0xE2]

/-- A frame whose CRC is wrong. -/
def badFrame : List Byte := [0, 21, 0, 0, 0, 0, 0, 0, 0x7F, 0xE3]

/-- A command of the host to node 21. -/
def hostCommand (tag : Tag) (flags : Byte) : List Byte :=
  ({ dest := 21, source := 250, kind := 0x10, flags := flags, tag := tag, payload := [] } : Frame).bytes

/-- A step record that can wait in a queue. -/
def someRecord (step : StepId) (mark : Bool) : StepRecord :=
  { run := 7, step := step, series := 0, verdict := .pass, cause := .ok, value := none, samplesUsed := 1, overrange := false, sat := false,
    short := false, disturbed := false, extra := false, exponent := 0, limit := none, rawMean := none, mark := mark }

/-- The matrix of spec section 1.8.1: B0 and B1 owned by site 2 with groups 4 and 5, B1 and B6 an exclusion pair. -/
def fixture : State :=
  let t := bench.tables
  wired (cross 6 131 ||| cross 6 140 ||| cross 0 150)
    { bench with
      tables := { t with
        buses := ((t.buses.set 0 { owner := some 2, relayType := 0, exclusion := 0 }).set 1
          { owner := some 2, relayType := 0, exclusion := 0b01000000 }).set 6 { owner := none, relayType := 1, exclusion := 0 }
        relays := (t.relays.set 0 { operate := 500, release := 200 }).set 1 { operate := 4000, release := 2500 }
        sites := t.sites.set 2 { SiteEntry.reset 2 with firstGroup := 4, groupCount := 2, skew := 3 } } }

/-- The two operations of spec TABLE 1-6 with absolute groups and skewed flags, as a PATCH gives them. -/
def twoOperations : List OpRaw :=
  [{ group := 4, rep := 0, kind := 1, enable := 0b10, force := 0, forceClose := 0, pattern := 0b11000, mask := 0xFFFFFFFF },
   { group := 4, rep := 1, kind := 0, enable := 0b1000000, force := 0b1000000, forceClose := 0, pattern := 0, mask := 0xFFFFFFFF }]

/-- The transition of spec section 2.7.1 in its break phase: a STEP commit of site 2. -/
def inBreak : State :=
  let c := inPhase { StepEntry.reset with patch := some 12, settle := 1000 } .apply
  let s := running 2 c (wired (cross 7 0 ||| cross 3 300) fixture)
  { s with
    engine := { s.engine with
      flight := some { kind := .step (some 2), opening := cross 1 135 ||| cross 6 131, closing := cross 1 131 ||| cross 1 132,
                       phase := .breaking, remaining := 2500, cut := false }
      flags := 0b01000010 } }

/-! ### Byte layouts -/

/-- The check value of spec R179. -/
theorem test_crc : crc16 [0x31, 0x32, 0x33, 0x34, 0x35, 0x36, 0x37, 0x38, 0x39] = 0x29B1 := by decide +kernel

/-- The trigger tag of spec R86 b. -/
theorem test_partTag : partTag 3 17 = 0xB011 := by decide +kernel

/-- The CRC of the frame was computed outside the model. -/
theorem test_frame_read :
    readFrame [0xF0, 0xFA, 0x40, 0, 0, 5, 0, 1, 0, 0x82, 0x72]
      = some { dest := 240, source := 250, kind := 0x40, flags := 0, tag := 5, payload := [0] } := by decide +kernel

/-- A flag bit beside FORCE makes a frame bad, and so does a wrong length field (spec R167). -/
theorem test_frame_bad :
    readFrame (hostCommand 1 2) = none ∧ readFrame [0xF0, 0xFA, 0x40, 0, 0, 5, 0, 2, 0, 0x82, 0x72] = none := by decide +kernel

/-- A summary is 16 bytes long, a step record 14, 17 or 21 (spec TABLE 10-10). -/
theorem test_record_sizes :
    (StepRecord.bytes 2 (someRecord 10 false)).length = 14
    ∧ (StepRecord.bytes 2 { someRecord 10 false with value := some 5 }).length = 17
    ∧ (StepRecord.bytes 2 { someRecord 10 false with value := some 5, rawMean := some 5 }).length = 21
    ∧ (Summary.bytes 2 (summaryOf Run.reset .safe)).length = 16 := by decide +kernel

/-! ### Judgement (spec chapter 6) -/

/-- Spec TABLE 6-3. -/
theorem test_division :
    [roundDiv 7 2, roundDiv (-7) 2, roundDiv 5 4, roundDiv (-5) 4, roundDiv 6 4, roundDiv (-6) 4, roundDiv 1 3, roundDiv (-2) 3]
      = [4, -4, 1, -1, 2, -2, 0, -1] := by decide +kernel

/-- Spec section 6.6. -/
theorem test_average :
    judge [sample 1000120, sample 1000135, sample 1000110, sample 1000128] { offset := 120, gain := 16548, exponent := -6 }
        (some { low := 990000, high := 1020000, guard := 12000, mode := .both }) false false
      = { verdict := .marginal, value := some 1010013, mean := some 1000003, overrange := false, sat := false } := by decide +kernel

/-- Spec section 6.6, the short step. -/
theorem test_average_short :
    (judge [sample 1000120, sample 1000135, sample 1000110] { offset := 120, gain := 16548, exponent := -6 } none true false).value
      = some 1010012 := by decide +kernel

/-- Spec section 6.7. -/
theorem test_clamped :
    judge [sample (-8300000)] { offset := 0, gain := 20000, exponent := 0 } none false false
      = { verdict := .failRange, value := some (-8388608), mean := some (-8300000), overrange := false, sat := true } := by
  decide +kernel

/-- Spec TABLE 6-8. -/
theorem test_ties :
    [1, -1, 3, -3, -4].map (fun m => scaled { offset := 0, gain := 8192, exponent := 0 } m) = [1, -1, 2, -2, -2]
    ∧ rawMean { offset := 0, gain := 8192, exponent := 0 } [sample (-3), sample (-4)] = -4 := by decide +kernel

/-- Spec TABLE 6-9 and the text under it. -/
theorem test_collapsed_band :
    let e (m : LimitMode) : Option LimitEntry := some { low := 100, high := 200, guard := 60, mode := m }
    [99, 100, 150, 200, 201].map (limitVerdict (e .both)) = [.failLow, .marginal, .marginal, .marginal, .failHigh]
    ∧ [99, 100, 159, 160].map (limitVerdict (e .low)) = [.failLow, .marginal, .marginal, .pass]
    ∧ [140, 141, 200, 201].map (limitVerdict (e .high)) = [.pass, .marginal, .marginal, .failHigh] := by decide +kernel

/-- Spec TABLE 6-10. -/
theorem test_series :
    let e : Option LimitEntry := some { low := 400, high := 600, guard := 20, mode := .both }
    let cal : Calibration := { offset := 0, gain := 16384, exponent := 0 }
    [{ sample 500 with overrange := false }, { sample 8388607 with overrange := true }, sample 410].map
        (fun x => (judge [x] cal e true false).verdict) = [.marginal, .failRange, .marginal] := by decide +kernel

/-! ### The matrix and the engine (spec chapters 1 and 2) -/

/-- Spec section 1.6.1: site 3, first group 6, skew 3. -/
theorem test_operation_under_skew :
    PatchOp.apply { group := 1, rep := 0, kind := .join, pattern := 0x40000001, mask := 0x40000007, enable := 0b100, force := 0,
                    forceClose := 0 } 6 3 0 = cross 2 225 ||| cross 2 227 := by decide +kernel

/-- Spec TABLE 1-8: the break phase works B6 alone, of relay type 1. -/
theorem test_patch_breaks :
    (after (.patch 0x10 0 50 twoOperations) fixture).engine.flight
      = some { kind := .host 0x10, opening := cross 6 131 ||| cross 6 140, closing := cross 1 131 ||| cross 1 132, phase := .breaking,
               remaining := 2500, cut := false } := by decide +kernel

/-- Spec section 1.8.1: operation 0 alone is refused EXCLUSION. -/
theorem test_patch_exclusion : answers (.patch 0x10 0 50 (twoOperations.take 1)) fixture = [rsp 0x10 [0x05, 8]] := by decide +kernel

/-- Spec TABLE 1-9. -/
theorem test_verify :
    answers (.verifyMatrix 1 4 0b10 0b01000010) (wired (cross 1 131 ||| cross 1 132 ||| cross 0 150) bench)
      = [rsp 1 [0x07, 0, 0, 0, 0, 0b11000]] := by decide +kernel

/-- Spec R20: flag k of bus b in the group. -/
theorem test_read_matrix :
    answers (.readMatrix 1 4) (wired (cross 1 131) bench)
      = [rsp 1 ([0x06, 0] ++ [0, 0, 0, 0] ++ [0, 0, 0, 0b1000] ++ List.replicate 24 0)] := by decide +kernel

/-- Spec TABLE 2-3: at the end of the break the closing set joins, for 500 µs. -/
theorem test_break_ends :
    let t := after .breakPhaseEnd inBreak
    t.matrix.image = cross 7 0 ||| cross 3 300 ||| cross 1 131 ||| cross 1 132
    ∧ t.engine.flight.map (fun f => (f.phase, f.remaining)) = some (.making, 500) := by decide +kernel

/-- Spec R2: the value of position 3,071 is shifted first and that of position 0 last; then the strobe. -/
theorem test_chain_signals :
    (chainSignals (cross 7 383)).head? = some (.shift true) ∧ (chainSignals (cross 0 0))[3071]? = some (.shift true)
    ∧ (chainSignals 0).getLast? = some .strobe := by decide +kernel

/-- Spec TABLE 2-3: the make ends, the flags clear and the step settles for its 1000 µs. -/
theorem test_make_ends :
    let t := after .makePhaseEnd (after .breakPhaseEnd inBreak)
    t.engine.flags = 0 ∧ t.runs[2].ctx.map (fun c => (c.phase, c.settleTimer)) = some (.settle, some 1000) := by decide +kernel

/-- Spec TABLE 2-5: the hold of a SITE-OPEN runs out. -/
theorem test_hold_expires :
    let s := { bench with engine := { bench.engine with
      queue := [{ place := .site 4, work := .siteOpen, holdLimit := 1000, remaining := 1000000 }] } }
    let t := after (.holdTimerExpire (.site 4)) (holding 1 6 [] (wired (cross 5 130)
      { s with tables := { s.tables with
          sites := s.tables.sites.set 4 { SiteEntry.reset 4 with firstGroup := 4 }
          channels := s.tables.channels.set 8 { s.tables.channels[8] with attach := some 5, output := .off } } }))
    t.engine.queue = [] ∧ t.trunk.events = [(1, .openExpired 4)] ∧ t.matrix.image = cross 5 130 := by decide +kernel

/-! ### Claims, sites and steps (spec chapters 3, 4 and 5) -/

/-- Spec TABLE 3-3, at 45 ms: site 3 leaves the wait list of the meter; its step has failed CLAIM_TIMEOUT. -/
theorem test_claim_wait :
    let s := running 3 (inPhase (measuring 2 0) .claim) (holding 2 0 [3, 5] (instrumentUp 2 12 bench))
    let t := after (.claimWaitTimerExpire 3) { s with claims := { s.claims with timers := s.claims.timers.set 3 (some 0) } }
    t.claims.records[2] = { holder := some 0, waits := [5] }
    ∧ t.results[3].records.map (fun r => (r.verdict, r.cause)) = [(.noData, .claimTimeout)] := by decide +kernel

/-- Spec R63, R64: a run begins. -/
theorem test_start :
    let t := after (.start 1 0b100) bench
    t.trunk.responses = [rsp 1 [0x08, 0, 0]] ∧ t.runs[2].state = .running ∧ t.runs[2].number = 1 := by decide +kernel

/-- Spec section 4.10: START after the removal of site 5's board is answered BUSY, NO_BOARD, BUSY. -/
theorem test_start_refused :
    let s := { bench with
      inputs := { bench.inputs with present := bench.inputs.present.set 5 false }
      engine := { bench.engine with
        queue := [{ place := .site 4, work := .siteOpen, holdLimit := 1000, remaining := 1000 }]
        flight := some { kind := .host 0x10, opening := 0, closing := 0, phase := .making, remaining := 5, cut := false } }
      results := bench.results.set 6 { bench.results[6] with summary := some (summaryOf Run.reset .ended) } }
    answers (.start 1 0b1110000) s = [rsp 1 [0x08, 0, 4, 6, 4]] := by decide +kernel

/-- Spec R65. -/
theorem test_halt :
    let t := after (.halt 1 0b1100) (running 2 { inPhase StepEntry.reset .settle with settleTimer := some 500 } bench)
    t.trunk.responses = [rsp 1 [0x09, 0, 0b0100]] ∧ t.runs[2].pause = true := by decide +kernel

/-- Spec R68 b, R69: a PAUSED site whose link is END ends its run. -/
theorem test_resume :
    let t := after (.resume 1 0b0100) (withRun 2 (fun r => { r with state := .paused, number := 7 }) bench)
    t.trunk.responses = [rsp 1 [0x0A, 0, 0b0100]] ∧ t.runs[2].state = .idle
    ∧ t.results[2].summary.map (fun x => (x.run, x.cause)) = some (7, .ended) := by decide +kernel

/-- Spec R71: the panel flag. -/
theorem test_abort :
    let s := withRun 4 (fun r => { r with state := .paused }) (withRun 5 (fun r => { r with state := .paused }) bench)
    let t := after (.abort 1 0b100000 1)
      { s with tables := { s.tables with
          sites := (s.tables.sites.set 4 { SiteEntry.reset 4 with panel := 1 }).set 5 { SiteEntry.reset 5 with panel := 1 } } }
    t.trunk.responses = [rsp 1 [0x0B, 0, 0b110000]]
    ∧ t.results[4].summary.map Summary.cause = some .abortPanel ∧ t.results[5].summary.map Summary.cause = some .abortHost := by
  decide +kernel

/-- Spec section 4.10: the removal of site 5's board. -/
theorem test_board_removed :
    let s := withRun 4 (fun r => { r with state := .paused }) (withRun 5 (fun r => { r with state := .paused }) bench)
    let t := after (.presentChange 5 false)
      { s with tables := { s.tables with
          sites := (s.tables.sites.set 4 { SiteEntry.reset 4 with panel := 1 }).set 5 { SiteEntry.reset 5 with panel := 1 } } }
    t.trunk.events = [(1, .board 5 false)]
    ∧ t.results[4].summary.map Summary.cause = some .abortPanel ∧ t.results[5].summary.map Summary.cause = some .absent := by
  decide +kernel

/-- Spec TABLE 5-8, at 3 ms: the trigger with sequence 17, and the TRG frame of spec TABLE 10-6. -/
theorem test_settle_ends :
    let c := { inPhase { measuring 2 3 with setup := 0x1234, collect := 50 } .settle with settleTimer := some 1000 }
    let t := after (.settleTimerEnd 3) (withRun 3 (fun r => { r with seq := 16 })
      (running 3 c (holding 2 3 [] (instrumentUp 2 12 bench))))
    t.lanes[2].partFrames
      = [{ dest := 12, source := 240, kind := 0x30, flags := 0, tag := 0xB011, payload := [0, 4, 0x12, 0x34] }]
    ∧ t.runs[3].seq = 17 ∧ t.runs[3].ctx.map (fun c => (c.phase, c.collectTimer)) = some (.collect, some 50000) := by decide +kernel

/-- Spec TABLE 5-4: the collect limit without a sample; the CAN frame. -/
theorem test_collect_expires :
    let t := after (.collectTimerExpire 3) (metering [])
    t.lanes[2].partFrames = [{ dest := 12, source := 240, kind := 0x31, flags := 0, tag := 0xB011, payload := [0] }]
    ∧ t.results[3].records.map (fun r => (r.verdict, r.cause)) = [(.noData, .collectTimeout)] := by decide +kernel

/-- Spec R96, R70: a failed step counts as a failure. -/
theorem test_failure_counted :
    let t := after (.collectTimerExpire 3) (metering [])
    (t.runs[3].fail, t.runs[3].worst, t.runs[3].firstFail) = (1, .noData, some 40) := by decide +kernel

/-! ### Readings and taps (spec chapter 9) -/

/-- Spec TABLE 9-5, at 9 ms. -/
theorem test_reading_attributed :
    let t := after (.laneFrameReceive 2 false (reading 0xB011 0 [1, 2, 3])) (metering [])
    t.runs[3].ctx.map (fun c => c.samples) = some [sample 1, sample 2, sample 3]
    ∧ t.taps[0].fresh = true ∧ t.taps[0].attribution = some (3, 40) ∧ t.trunk.events = [(1, .tap 0)] := by decide +kernel

/-- Spec TABLE 9-5, at 14 ms: one sample is left over. -/
theorem test_reading_completes :
    let t := after (.laneFrameReceive 2 false (reading 0xB011 0 [1000128, 5])) (metering [sample 1000120, sample 1000135, sample 1000110])
    t.results[3].records.map (fun r => (r.verdict, r.value, r.samplesUsed, r.extra)) = [(.marginal, some 1010013, 4, true)]
    ∧ t.claims.records[2].holder = none := by decide +kernel

/-- Spec TABLE 9-5, at 12 and 13 ms. -/
theorem test_reading_stale :
    (after (.laneFrameReceive 2 false (reading 0xB010 0 [1, 2])) (metering [])).counters.staleReadings = 1
    ∧ (after (.laneFrameReceive 2 false (reading 0xB011 1 [1])) (metering [])).counters.staleReadings = 1 := by decide +kernel

/-- Spec TABLE 9-7: a second capture before the take, which returns it. -/
theorem test_take_taps :
    let tap : Tap :=
      { enabled := true, node := 30, channel := 2, notify := true, fresh := true, last := some (sample 5133), attribution := none,
        overrun := 1 }
    let s : State := { bench with taps := bench.taps.set 1 tap }
    let t := after (.takeTaps 1) s
    t.taps[1].fresh = false ∧ t.taps[1].overrun = 0 ∧ t.taps[1].last = some (sample 5133)
    ∧ (t.trunk.responses.map fun f => ((f.payload.drop 17).take 11)) = [[1, 1, 30, 2, 1, 1, 1, 0, 0, 0x14, 0x0D]] := by decide +kernel

/-- Spec R164. -/
theorem test_set_taps :
    let t := after (.setTaps 1 [{ index := 3, enabled := 1, node := 239, channel := 7, notify := 1 }]) bench
    t.trunk.responses = [rsp 1 [0x0E, 0]] ∧ t.taps[3] = { Tap.reset with enabled := true, node := 239, channel := 7, notify := true } := by
  decide +kernel

/-- Spec R164: a channel outside 0..7. -/
theorem test_set_taps_refused :
    answers (.setTaps 1 [{ index := 3, enabled := 1, node := 239, channel := 8, notify := 1 }]) bench = [rsp 1 [0x0E, 2]] := by
  decide +kernel

/-- Spec TABLE 9-4: a host command to a held instrument bounces, with FORCE it is queued. -/
theorem test_command_held :
    let s := holding 5 1 [] (instrumentUp 5 21 bench)
    (after (.trunkFrameReceive (hostCommand 0x0203 0)) s).trunk.bounces = [{ tag := 0x0203, reason := .held, node := 21 }]
    ∧ ((after (.trunkFrameReceive (hostCommand 0x0204 1)) s).lanes[5].hostFrames.map Frame.tag) = [0x0204] := by decide +kernel

/-- Spec TABLE 9-4: a CAN that finds 8 frames takes the place of the youngest host frame. -/
theorem test_queue_full :
    let h (t : Tag) : Frame := { dest := 12, source := 250, kind := 0x10, flags := 1, tag := t, payload := [] }
    let t := after (.collectTimerExpire 3)
      (withLane 2 (fun x => { x with hostFrames := [h 1, h 2, h 4, h 5, h 6, h 7, h 9, h 8] }) (metering []))
    t.trunk.bounces = [{ tag := 8, reason := .laneFull, node := 12 }] ∧ t.lanes[2].hostFrames.map Frame.tag = [1, 2, 4, 5, 6, 7, 9] := by
  decide +kernel

/-! ### Lanes (spec chapter 8) -/

/-- Spec TABLE 8-6, at 0 ms: the response shows WAKING. -/
theorem test_set_lanes :
    let t := after (.setLanes 1 [{ lane := 5, demand := 1, loopback := 0 }]) bench
    t.trunk.responses = [rsp 1 [0x04, 0, 0, 0, 0, 0, 0, 1, 0, 0, 0, 0, 0, 0]] ∧ t.lanes[5].timer = some 20000 := by decide +kernel

/-- Spec TABLE 8-6, at 20 ms. -/
theorem test_wake_window :
    let t := after (.wakeWindowExpire 5) (withLane 5 (fun x => { x with state := .waking, demand := true, timer := some 20000 }) bench)
    (t.lanes[5].state, t.lanes[5].attempts, t.lanes[5].timer) = (.retryWait, 1, some 50000) := by decide +kernel

/-- Spec TABLE 8-6, at 70 ms. -/
theorem test_retry_time :
    let t := after (.retryTimeExpire 5)
      (withLane 5 (fun x => { x with state := .retryWait, demand := true, attempts := 1, timer := some 50000 }) bench)
    (t.lanes[5].state, t.lanes[5].attempts, t.lanes[5].timer) = (.waking, 1, some 20000) := by decide +kernel

/-- Spec TABLE 8-6, at 73 ms. -/
theorem test_card_answers :
    let t := after (.cardConditionChange 5 .answer)
      (withLane 5 (fun x => { x with state := .waking, demand := true, attempts := 1, timer := some 17000 }) bench)
    (t.lanes[5].state, t.lanes[5].attempts, t.lanes[5].timer) = (.aligning, 1, some 10000) := by decide +kernel

/-- Spec R139: an answering card calls in OFF. -/
theorem test_card_calls : (after (.cardConditionChange 5 .answer) bench).trunk.events = [(1, .laneCall 5)] := by decide +kernel

/-- Spec TABLE 8-6, at 73.9 ms; EVT LANE (5, UP, 1). -/
theorem test_lane_up :
    let t := after (.laneFrameReceive 5 false cardIdle) (withLane 5
      (fun x => { x with state := .aligning, demand := true, attempts := 1, timer := some 9000, goodRun := 3, card := .stream }) bench)
    t.lanes[5].state = .up ∧ t.lanes[5].timer = none ∧ t.trunk.events = [(1, .lane 5 .up 1)] := by decide +kernel

/-- Spec TABLE 8-7, at 2.4 ms. -/
theorem test_lane_lost :
    let cmd : Frame := { dest := 21, source := 250, kind := 0x10, flags := 0, tag := 0x0102, payload := [] }
    let t := after (.laneFrameReceive 5 false badFrame)
      (withLane 5 (fun x => { x with badRun := 2, attempts := 1, hostFrames := [cmd] }) (instrumentUp 5 21 bench))
    (t.lanes[5].state, t.lanes[5].timer) = (.lost, some 5000) ∧ t.trunk.bounces = [{ tag := 0x0102, reason := .laneDown, node := 21 }]
    ∧ t.trunk.events = [(1, .lane 5 .lost 1)] := by decide +kernel

/-- Spec TABLE 8-7, at 35 ms. -/
theorem test_lost_window :
    let t := after (.lostWindowExpire 5)
      (withLane 5 (fun x => { x with state := .lost, demand := true, attempts := 1, timer := some 5000 }) bench)
    (t.lanes[5].state, t.lanes[5].attempts, t.lanes[5].timer) = (.retryWait, 0, some 50000)
    ∧ t.trunk.events = [(1, .lane 5 .retryWait 0)] := by decide +kernel

/-- Spec R138: the eighth failed attempt. -/
theorem test_align_window :
    let t := after (.alignWindowExpire 5)
      (withLane 5 (fun x => { x with state := .aligning, demand := true, attempts := 7, timer := some 1 }) bench)
    (t.lanes[5].state, t.lanes[5].attempts) = (.faulted, 8) ∧ t.trunk.events = [(1, .lane 5 .faulted 8)] := by decide +kernel

/-- Spec R143. -/
theorem test_drain_limit :
    let t := after (.drainLimitExpire 5) (withLane 5 (fun x => { x with state := .draining, timer := some 1, card := .stream }) bench)
    t.lanes[5].state = .off ∧ t.trunk.events = [(1, .lane 5 .off 0)] := by decide +kernel

/-- Spec R143. -/
theorem test_quiet_timer :
    let t := after (.quietTimerReach 5)
      (withLane 5 (fun x => { x with state := .draining, timer := some 5000, quiet := some 2000 }) bench)
    t.lanes[5].state = .off ∧ t.trunk.events = [(1, .lane 5 .off 0)] := by decide +kernel

/-- Spec R144. -/
theorem test_loop_window :
    (after (.loopWindowExpire 5) (withLane 5
      (fun x => { x with state := .loop, loopback := true, loopStatus := .testing, timer := some 10000 }) bench)).lanes[5].loopStatus
      = .bad := by decide +kernel

/-- Spec TABLE 9-4, the last row: T1 is sent ahead of H1. -/
theorem test_lane_sends :
    let f (kind : Byte) (t : Tag) : Frame := { dest := 21, source := 250, kind := kind, flags := 0, tag := t, payload := [] }
    let t := after (.laneSendBegin 5)
      (withLane 5 (fun x => { x with partFrames := [f 0x30 1, f 0x31 2], hostFrames := [f 0x10 3] }) (instrumentUp 5 21 bench))
    t.lanes[5].sending = some (f 0x30 1) ∧ t.lanes[5].partFrames = [f 0x31 2] ∧ t.lanes[5].hostFrames = [f 0x10 3] := by decide +kernel

/-- Spec TABLE 8-2: the line conditions that the part sends. -/
theorem test_line_conditions :
    [LaneState.off, .waking, .aligning, .up, .lost, .retryWait, .faulted, .draining, .loop].map LaneState.line
      = [.quiet, .wake, .stream, .stream, .stream, .quiet, .quiet, .quiet, .quiet] := by decide

/-! ### Tables (spec TABLE 10-12) -/

/-- Spec R3. -/
theorem test_write_relays :
    let t := after (.writeRelayTypeTable 1 [{ index := 3, operate := 65535, release := 1 }]) bench
    t.trunk.responses = [rsp 1 [0x02, 0]] ∧ t.tables.relays[3] = { operate := 65535, release := 1 } := by decide +kernel

/-- Spec R5: an exclusion pair that the image already connects. -/
theorem test_write_buses_exclusion :
    answers (.writeBusTable 1 [{ index := 0, owner := 0xFF, relayType := 0, exclusion := 0b10 }]) (wired (cross 0 7 ||| cross 1 7) bench)
      = [rsp 1 [0x02, 8]] := by decide +kernel

/-- Spec TABLE 1-1. -/
theorem test_write_buses :
    (after (.writeBusTable 1 [{ index := 7, owner := 6, relayType := 3, exclusion := 0b1 }]) bench).tables.buses[7]
      = { owner := some 6, relayType := 3, exclusion := 0b1 } := by decide +kernel

/-- Spec R59: extents that would overlap. -/
theorem test_write_sites_overlap :
    answers (.writeSiteTable 1 [{ index := 0, firstGroup := 0, groupCount := 2, skew := 0, panel := 0, startStep := 0, claimWait := 1,
                                  holdLimit := 1, batch := 1, options := 0 }]) bench = [rsp 1 [0x02, 7]] := by decide +kernel

/-- Spec TABLE 4-1, at the ends of the ranges. -/
theorem test_write_sites :
    (after (.writeSiteTable 1 [{ index := 7, firstGroup := 11, groupCount := 1, skew := 31, panel := 7, startStep := 1023,
                                 claimWait := 65535, holdLimit := 1, batch := 32, options := 2 }]) bench).tables.sites[7]
      = { firstGroup := 11, groupCount := 1, skew := 31, panel := 7, startStep := 1023, claimWait := 65535, holdLimit := 1, batch := 32,
          markAll := false, openOnAbort := true } := by decide +kernel

/-- Spec R150: two entries of one request that give one node, to two lanes and to one. -/
theorem test_write_instruments_duplicate :
    ∀ l ∈ [(1 : Byte), 0],
      answers (.writeInstrumentTable 1 [{ lane := 0, node := 5, policy := 0xFF, channels := 1 },
        { lane := l, node := 5, policy := 0xFF, channels := 1 }]) bench = [rsp 1 [0x02, 14]] := by decide +kernel

/-- Spec TABLE 9-1. -/
theorem test_write_instruments :
    (after (.writeInstrumentTable 1 [{ lane := 11, node := 239, policy := 7, channels := 8 }]) bench).tables.instruments[11]
      = { node := 239, policy := some 7, channels := 8 } := by decide +kernel

/-- Spec TABLE 6-1: a negative offset and a negative exponent; the output state stays. -/
theorem test_write_channels :
    (after (.writeChannelTable 1 [{ index := 95, attach := 7, offset := 0x800000, gain := 0xFFFF, exponent := 0xF1 }])
      bench).tables.channels[95]
      = { attach := some 7, cal := { offset := -8388608, gain := 65535, exponent := -15 }, output := .unknown } := by decide +kernel

/-- Spec R103: limits out of order. -/
theorem test_write_limits_order :
    answers (.writeLimitTable 1 [{ index := 511, low := 1, high := 0xFFFFFF, guard := 0, mode := 0 }]) bench = [rsp 1 [0x02, 10]] := by
  decide +kernel

/-- Spec TABLE 6-2. -/
theorem test_write_limits :
    (after (.writeLimitTable 1 [{ index := 511, low := 0xFFFFFF, high := 1, guard := 60, mode := 1 }]) bench).tables.limits[511]
      = { low := -1, high := 1, guard := 60, mode := .low } := by decide +kernel

/-- Spec TABLE 10-11. -/
theorem test_write_patches :
    (after (.writePatchTable 1 [{ index := 255, ops := [{ group := 11, rep := 0, kind := 3, enable := 1, force := 2, forceClose := 2,
                                                          pattern := 5, mask := 6 }] }]) bench).tables.patches[255]
      = [{ group := 11, rep := 0, kind := .flip, pattern := 5, mask := 6, enable := 1, force := 2, forceClose := 2 }] := by decide +kernel

/-- Spec TABLE 5-1. -/
theorem test_write_steps :
    (after (.writeStepTable 1 [{ index := 1023, patch := 255, instrument := 11, channel := 7, mode := 1, sampleCode := 63, setup := 0x1234,
                                 limit := 511, settle := 65535, collect := 1, flags := 0b1010, next := 0xFFFF }])
      bench).tables.steps[1023]
      = { patch := some 255, instrument := some 11, channel := 7, mode := .series, sampleCode := 63, setup := 0x1234, limit := some 511,
          settle := 65535, collect := 1, keep := false, stopOnFail := true, mark := false, raw := true, next := none } := by
  decide +kernel

/-- Spec TABLE 10-12: the relay-type table after a full reset, 2000 being 0x07D0. -/
theorem test_read_table :
    answers (.readTable 1 1 3 1) bench = [rsp 1 [0x03, 0, 3, 0x07, 0xD0, 0x07, 0xD0]]
    ∧ answers (.readTable 1 1 3 2) bench = [rsp 1 [0x03, 2]] := by decide +kernel

/-! ### The management unit, the trunk and the results (spec chapters 7 and 10) -/

/-- Spec TABLE 10-2, R169. -/
theorem test_nop : answers (.nop 5) bench = [rsp 5 [0, 0]] := by decide +kernel

/-- The same request as a frame. -/
theorem test_nop_frame :
    answers (.trunkFrameReceive [0xF0, 0xFA, 0x40, 0, 0, 5, 0, 1, 0, 0x82, 0x72]) bench = [rsp 5 [0, 0]] := by decide +kernel

/-- Spec R169: an empty payload is answered with the code 0xFF. -/
theorem test_bad_request :
    answers (.badRequest 5 []) bench = [rsp 5 [0xFF, 1]] ∧ answers (.badRequest 5 [0x77, 1]) bench = [rsp 5 [0x77, 1]] := by decide +kernel

/-- Spec TABLE 10-14: the first bytes after a full reset. -/
theorem test_read_status :
    (answers (.readStatus 5 0) State.reset).map (fun f => f.payload.take 8) = [[0x01, 0, 0x08, 0x24, 1, 0b11, 0b0001, 0]] := by
  decide +kernel

/-- Spec R174: the counters are cleared after they are taken. -/
theorem test_read_status_clears :
    let s := { bench with counters := { badFrames := 258, inputDiscards := 0, staleReadings := 0, forwardDrops := 0 } }
    (answers (.readStatus 5 1) s).map (fun f => (f.payload.drop 8).take 2) = [[1, 2]]
    ∧ (after (.readStatus 5 1) s).counters.badFrames = 0 := by decide +kernel

/-- Spec TABLE 10-15: an IDLE site. -/
theorem test_read_site :
    (answers (.readSite 5 0b10000000) bench).map Frame.payload
      = [[0x0D, 0, 7, 0, 0xFF, 0, 0, 0, 0, 0, 0, 0b10, 0, 0, 0, 0, 0, 0, 0, 0xFF, 0xFF, 0, 0, 0, 0, 0xFF, 0xFF, 0xFF, 0, 0]] := by
  decide +kernel

/-- Spec TABLE 7-3, at 0 ms. -/
theorem test_credit :
    answers (.credit 5 2 3) bench = [rsp 5 [0x0C, 0, 3]]
    ∧ answers (.credit 5 2 200) (after .transmitChoice (after (.credit 5 2 200) bench)) = [rsp 5 [0x0C, 0, 255]] := by decide +kernel

/-- Spec TABLE 7-3, at 14 ms: five records, credit 3, the frame tag 0xA005. -/
theorem test_delivery :
    let s := { bench with
      results := bench.results.set 2
        { records := [10, 11, 12, 12, 12].map fun k => someRecord k false, summary := none, credit := 3, seq := 5 }
      tables := { bench.tables with sites := bench.tables.sites.set 2 { SiteEntry.reset 2 with batch := 4, markAll := false } } }
    let t := after .transmitChoice s
    t.trunk.sending.map (fun f => (f.kind, f.tag, f.payload.take 1, f.payload.length)) = some (0x42, 0xA005, [3], 43)
    ∧ t.results[2].records.length = 2 ∧ t.results[2].credit = 0 := by decide +kernel

/-- Spec TABLE 7-3, at 30 ms: a marked record, credit 2, the frame tag 0xA006. -/
theorem test_delivery_marked :
    let s := { bench with
      results := bench.results.set 2
        { records := [someRecord 12 false, someRecord 12 false, someRecord 13 true], summary := some (summaryOf Run.reset .ended),
          credit := 2, seq := 6 }
      tables := { bench.tables with sites := bench.tables.sites.set 2 { SiteEntry.reset 2 with batch := 4, markAll := false } } }
    let t := after .transmitChoice s
    t.trunk.sending.map (fun f => (f.tag, f.payload.take 1)) = some (0xA006, [2]) ∧ t.results[2].records.length = 1 := by decide +kernel

/-! ### SAFE and resets (spec chapters 10 and 11) -/

/-- Spec TABLE 11-2, at 1000 µs: SAFE-REQ during the break phase. -/
theorem test_safe_entry :
    let h : Commit := { place := .host 0, work := .host 0x20 false [], holdLimit := 50, remaining := 40000 }
    let t := after .safeReqAssert { inBreak with engine := { inBreak.engine with queue := [h] } }
    t.protection.safe = true ∧ t.protection.causes = 0b0100 ∧ t.protection.openDone = false ∧ t.protection.timer = none
    ∧ t.engine.flight.map Transition.cut = some true ∧ t.trunk.responses = [rsp 0x20 [0x05, 12]]
    ∧ t.results[2].summary.map Summary.cause = some .safe ∧ t.trunk.events = [(1, .safeEnter 0b0100)] := by decide +kernel

/-- Spec TABLE 11-2, at 2500 µs: the SAFE-OPEN begins, for 200 µs. -/
theorem test_safe_open :
    let s := after .safeReqAssert inBreak
    let t := after .breakPhaseEnd s
    t.matrix.image = 0
    ∧ t.engine.flight.map (fun f => (f.kind, f.remaining)) = some (.opening .safeOpen, 200) := by decide +kernel

/-- Spec R182: the silence timer runs out. -/
theorem test_silence :
    let t := after .silenceTimerExpire bench
    t.protection.safe = true ∧ t.protection.causes = 0b0010 ∧ t.protection.openDone = true := by decide +kernel

/-- Spec R182: SET SILENCE, in tenths of a second. -/
theorem test_set_silence : (after (.setSilence 1 80) bench).protection.timer = some 8000000 := by decide +kernel

/-- Spec R187: a released input changes nothing but its level. -/
theorem test_safe_req_release :
    let s := { State.reset with inputs := { State.reset.inputs with safeReq := true } }
    (after .safeReqRelease s).protection.safe = true ∧ (after .safeReqRelease s).inputs.safeReq = false := by decide +kernel

/-- Spec R187, section 11.9: CLEAR SAFE is answered SAFE_ACTIVE while the input is asserted, and else accepted. -/
theorem test_clear_safe :
    answers (.clearSafe 1) { State.reset with inputs := { State.reset.inputs with safeReq := true } } = [rsp 1 [0x12, 13]]
    ∧ answers (.clearSafe 1) State.reset = [rsp 1 [0x12, 0]] ∧ (after (.clearSafe 1) State.reset).protection.safe = false := by
  decide +kernel

/-- Spec R183: entry by request. -/
theorem test_enter_safe :
    let t := after (.enterSafe 1) bench
    t.trunk.responses = [rsp 1 [0x11, 0]] ∧ t.protection.causes = 0b1000 := by decide +kernel

/-- Spec R177: RESET RUN is unanswered while its opening runs. -/
theorem test_reset_run :
    let t := after (.resetRun 1) (wired (cross 0 0) bench)
    t.trunk.responses = [] ∧ t.trunk.resetRun = some 1 ∧ t.matrix.image = 0
    ∧ answers (.resetRun 2) t = [rsp 2 [0x13, 4]] ∧ answers .breakPhaseEnd t = [rsp 1 [0x13, 0]] := by decide +kernel

/-- Spec TABLE 10-10, TABLE 10-9: a step record with its value and its raw mean, and two events. -/
theorem test_record_bytes :
    { someRecord 1023 true with
      run := 258, series := 63, verdict := .failHigh, value := some (-2), samplesUsed := 64, overrange := true, exponent := -6
      limit := some 511, rawMean := some (-3) }.bytes 7
      = [1, 7, 1, 2, 3, 0xFF, 63, 4, 0, 64, 0b11100001, 0xFA, 1, 0xFF, 0xFF, 0xFF, 0xFE, 0xFF, 0xFF, 0xFF, 0xFD]
    ∧ Event.payload (.sitePaused 7 1023 .stopOnFail) = [8, 7, 3, 0xFF, 1] ∧ Event.payload (.board 6 true) = [9, 6, 1] := by decide +kernel

/-- Spec R90 b, R163 c, R160: the reading that would be attributed meets the departure from UP that ends the collection; log 30: until time
passes. -/
theorem test_reading_meets_departure :
    let s := cardChanged 2 .quiet (metering [])
    let meets (s : State) : Option Bool := (readFrame (reading 0xB011 0 [1])).map (meetsDeparture s 2)
    meets s = some true ∧ meets (s.elapse 1) = some false ∧ (readFrame (reading 0xB010 0 [1])).map (meetsDeparture s 2) = some false
    ∧ (readFrame (reading 0xB011 1 [1])).map (meetsDeparture s 2) = some false := by decide +kernel

/-- Spec TABLE 8-7: after the third bad frame a reading of the ended step is discarded as a frame of LOST. -/
theorem test_reading_of_lost :
    let s := receiveLane 2 false badFrame (withLane 2 (fun x => { x with badRun := 2 }) (metering []))
    let t := receiveLane 2 false (reading 0xB011 0 [1]) s
    s.lanes[2].state = .lost ∧ t.lanes[2].goodRun = 1 ∧ t.counters.staleReadings = 0 ∧ t.taps[0].fresh = false := by decide +kernel

/-- Spec R178: RESET FULL is answered and then executed. -/
theorem test_reset_full :
    let s := after (.resetFull 1) bench
    let t := after .resetFullExecute (after .transmitChoice s)
    s.trunk.responses = [rsp 1 [0x14, 0]] ∧ s.trunk.closed = true ∧ t.trunk.closed = false ∧ t.protection.causes = 0b0001
    ∧ t.trunk.events = [(0, .safeEnter 0b0001)] := by decide +kernel

/-- Spec R178: a frame that arrives behind the answer stays in the input buffer, with which it is lost. -/
theorem test_reset_full_keeps_frames :
    let s := after (.trunkFrameReceive (⟨2, 250, 0x10, 0, 1, []⟩ : Frame).bytes) (after (.resetFull 1) bench)
    s.trunk.input.length = 1 ∧ s.trunk.bounces = [] ∧ (after .resetFullExecute (after .transmitChoice s)).trunk.input = [] := by
  decide +kernel

/-- Spec R178, R188: power-on with the SAFE-REQ input asserted. -/
theorem test_power_on :
    (after .powerOn { inBreak with inputs := { inBreak.inputs with safeReq := true } }).protection.causes = 0b0101
    ∧ (after .powerOn inBreak).matrix.image = 0 := by decide +kernel

/-- Spec R178: while RST-N is low the part takes in nothing; when it rises the part starts. -/
theorem test_rst_n :
    answers (.nop 5) (after .rstNAssert bench) = [] ∧ answers (.nop 5) (after .rstNRelease (after .rstNAssert bench)) = [rsp 5 [0, 0]] := by
  decide +kernel

/-- A step takes the front command. -/
theorem test_step :
    (match step { bench with pending := [.nop 5, .nop 6] } with
      | .next t => (t.trunk.responses, t.pending)
      | _ => ([], [])) = ([rsp 5 [0, 0]], [.nop 6]) := by decide +kernel

/-! ### Refused by WellFormed -/

/-- A frame of 9 bytes on the trunk, and on a lane. -/
theorem smoke_short_frame :
    (Instr.trunkFrameReceive (List.replicate 9 0)).wf = false ∧ (Instr.laneFrameReceive 0 false (List.replicate 9 0)).wf = false
    ∧ (Instr.trunkFrameReceive (List.replicate 10 0)).wf = true := by decide +kernel

/-- A BAD_REQUEST that a layout admits, and one longer than a payload. -/
theorem smoke_bad_request :
    (Instr.badRequest 1 [0x00]).wf = false ∧ (Instr.badRequest 1 (List.replicate 1025 0xFF)).wf = false
    ∧ (Instr.badRequest 1 []).wf = true := by decide +kernel

/-- Counts that do not fit in a byte. -/
theorem smoke_counts :
    (Instr.setLanes 1 (List.replicate 256 ⟨0, 0, 0⟩)).wf = false ∧ (Instr.setLanes 1 (List.replicate 255 ⟨0, 0, 0⟩)).wf = true
    ∧ (Instr.setTaps 1 (List.replicate 256 ⟨0, 0, 0, 0, 0⟩)).wf = false
    ∧ (Instr.patch 1 0 0 (List.replicate 256 ⟨0, 0, 0, 0, 0, 0, 0, 0⟩)).wf = false
    ∧ (Instr.writeRelayTypeTable 1 (List.replicate 256 ⟨0, 0, 0⟩)).wf = false
    ∧ (Instr.writeBusTable 1 (List.replicate 256 ⟨0, 0, 0, 0⟩)).wf = false
    ∧ (Instr.writeSiteTable 1 (List.replicate 256 ⟨0, 0, 0, 0, 0, 0, 0, 0, 0, 0⟩)).wf = false
    ∧ (Instr.writeInstrumentTable 1 (List.replicate 256 ⟨0, 0, 0, 0⟩)).wf = false
    ∧ (Instr.writeChannelTable 1 (List.replicate 256 ⟨0, 0, 0, 0, 0⟩)).wf = false
    ∧ (Instr.writeLimitTable 1 (List.replicate 256 ⟨0, 0, 0, 0, 0⟩)).wf = false
    ∧ (Instr.writePatchTable 1 (List.replicate 256 ⟨0, []⟩)).wf = false
    ∧ (Instr.writePatchTable 1 [⟨0, List.replicate 256 ⟨0, 0, 0, 0, 0, 0, 0, 0⟩⟩]).wf = false
    ∧ (Instr.writeStepTable 1 (List.replicate 256 ⟨0, 0, 0, 0, 0, 0, 0, 0, 0, 0, 0, 0⟩)).wf = false := by decide +kernel

/-- A payload longer than a frame holds; the table ids that have layouts of their own. -/
theorem smoke_payload :
    (Instr.writeRelayTypeTable 1 (List.replicate 205 ⟨0, 0, 0⟩)).wf = false
    ∧ (Instr.writeRelayTypeTable 1 (List.replicate 204 ⟨0, 0, 0⟩)).wf = true
    ∧ (List.range 12).map (fun t => (Request.writeNoTable (BitVec.ofNat 8 t)).wf)
      = [true, false, false, false, false, false, false, false, false, true, true, true] := by decide +kernel

/-! ### What the statements suppose

For each statement with hypotheses, states and operands that meet them, for each clause, at the ends of its ranges. -/

/-- Quiet and Listening from what can be evaluated. -/
theorem ready_when {s : State}
    (h : ((activities s).isEmpty && !s.inputs.rstLow && s.trunk.input.isEmpty && s.trunk.responses.isEmpty && !s.trunk.closed) = true) :
    s.Quiet ∧ s.Listening := by
  simp only [Bool.and_eq_true, Bool.not_eq_true', List.isEmpty_iff] at h
  obtain ⟨⟨⟨⟨h1, h2⟩, h3⟩, h4⟩, h5⟩ := h
  exact ⟨quiet_of_activities h1, h2, h3, h4, h5⟩

/-- AtRest from what can be evaluated. -/
theorem rest_when {s : State}
    (h : ((activities s).isEmpty && !s.inputs.rstLow && (s.trunk.input.isEmpty || !s.trunk.responses.isEmpty || s.trunk.closed)) = true) :
    s.AtRest := by
  simp only [Bool.and_eq_true, Bool.or_eq_true, Bool.not_eq_true', List.isEmpty_iff, List.isEmpty_eq_false_iff] at h
  obtain ⟨⟨h1, h2⟩, h3⟩ := h
  exact ⟨quiet_of_activities h1, h2, or_assoc.mp h3⟩

/-- A fact about every step context from what can be evaluated. -/
theorem contexts_when {s : State} {p : StepContext → Prop} [DecidablePred p]
    (h : ((List.finRange 8).all fun i : Site => ((s.runs[i].ctx.map fun c => decide (p c)).getD true)) = true) :
    ∀ (i : Site) (c : StepContext), s.runs[i].ctx = some c → p c := by
  intro i c hc
  have := List.all_eq_true.mp h i (List.mem_finRange i)
  rw [hc] at this
  exact of_decide_eq_true this

/-- ClaimsOrdered from what can be evaluated. -/
theorem claims_when {s : State}
    (h : (∀ (i : Site) (k l : LaneId), i ∈ s.claims.records[k].sites → i ∈ s.claims.records[l].sites → k = l)
      ∧ ∀ l : LaneId, s.claims.records[l].sites.Nodup ∧ (s.claims.records[l].holder = none → s.claims.records[l].waits = [])) :
    s.ClaimsOrdered := ⟨h.1, fun l => (h.2 l).1, fun l => (h.2 l).2⟩

/-- WaitersClaim from what can be evaluated. -/
theorem waiters_when {s : State}
    (h : ∀ (l : LaneId) (i : Site), i ∈ s.claims.records[l].waits → s.runs[i].ctx.map StepContext.phase = some .claim) :
    s.WaitersClaim := fun l i hi => by
  obtain ⟨c, hc, hp⟩ := Option.map_eq_some_iff.mp (h l i hi)
  exact ⟨c, hc, hp⟩

/-- Hands to no site, from what can be evaluated. -/
theorem nobody_when {s : State} {gone : Site → Bool} (h : ∀ l : LaneId, s.claims.records[l].handed gone = none) : s.Hands gone none := h

/-- CanApply, as it can be evaluated. -/
def canApply (s : State) (i : Site) (e : StepEntry) : Bool :=
  match e.patch with
  | some _ => decide ((∀ c ∈ s.engine.queue, c.place ≠ .site i) ∧ s.engine.flight.map Transition.kind ≠ some (.step (some i)))
  | none => decide (∀ l : LaneId, e.instrument = some l → e.settle ≠ 0 ∨ s.lanes[l].state = .up)

theorem applies_when {s : State} {i : Site} {e : StepEntry} (h : canApply s i e = true) : s.CanApply i e := by
  unfold canApply at h
  unfold State.CanApply
  cases hp : e.patch <;> rw [hp] at h <;> exact of_decide_eq_true h

/-- Hands to a site, from what can be evaluated. -/
theorem hands_when {s : State} {gone : Site → Bool} {j : Site} (l : LaneId)
    (h : (∀ k : LaneId, s.claims.records[k].handed gone = if k = l then some j else none) ∧ s.runs[j].state = .running
      ∧ s.runs[j].ctx.map (fun c => decide (c.entry.instrument ≠ none) && canApply s j c.entry) = some true) :
    s.Hands gone (some j) := by
  obtain ⟨c, hc, hp⟩ := Option.map_eq_some_iff.mp h.2.2
  obtain ⟨hi, ha⟩ := Bool.and_eq_true_iff.mp hp
  exact ⟨⟨l, h.1⟩, h.2.1, c, hc, of_decide_eq_true hi, applies_when ha⟩

/-- Idles where no commit waits, from what can be evaluated. -/
theorem idles_when {s : State} (h : s.engine.flight.isSome = true ∨ s.engine.openings = [] ∧ s.engine.queue = []) : s.Idles := by
  rcases h with hf | ⟨ho, hq⟩
  · exact .inl (Option.isSome_iff_ne_none.mp hf)
  · exact .inr ⟨ho, hq ▸ nofun⟩

/-- What a site gives up with its claim leaves the engine alone. -/
theorem unclaimed_engine (s : State) (i : Site) (c : StepContext) : (s.unclaimed i c).engine = s.engine := by
  unfold State.unclaimed
  split <;> rfl

/-- Enters for a step, from what can be evaluated. -/
theorem enters_when {s : State} {i : Site} {n : StepId}
    (h : (∀ l : LaneId, s.tables.steps[n].instrument = some l → s.tables.instruments[l].node ≠ 0
        ∧ (s.tables.instruments[l].policy = none ∨ s.tables.instruments[l].policy = some i))
      ∧ ((∃ l : LaneId, s.tables.steps[n].instrument = some l ∧ s.claims.records[l].holder ≠ none
          ∧ s.claims.records[l].holder ≠ some i) ∨ canApply s i s.tables.steps[n] = true)) : s.Enters i n :=
  ⟨h.1, fun hg => h.2.elim (fun ⟨l, hl, hn, hi⟩ => ((hg l hl).elim hn hi).elim) applies_when⟩

/-- ReleasesTo for the last step of a run, from what can be evaluated. -/
theorem releases_when {s : State} {i : Site} {c : StepContext} {next : Option Site} (ho : s.ClaimsOrdered)
    (hh : s.Hands (fun j => decide (j = i)) next)
    (h : (∀ l : LaneId, i ∈ s.claims.records[l].sites → c.entry.instrument = some l ∧ s.claims.records[l].holder = some i)
      ∧ (s.engine.flight.isSome = true ∨ s.engine.openings = [] ∧ s.engine.queue = []) ∧ c.entry.next = none) :
    s.ReleasesTo i c next := by
  have hn : s.follows i c = none := by
    unfold State.follows
    split
    · rfl
    · exact h.2.2
  exact ⟨ho, h.1, idles_when (unclaimed_engine s i c ▸ h.2.1), fun _ => hh, fun n hf => absurd (hn.symm.trans hf) nofun,
    fun n _ hf => absurd (hn.symm.trans hf) nofun⟩

/-- ReleasesTo for a step with another behind it, from what can be evaluated. -/
theorem links_when {s : State} {i : Site} {c : StepContext} {next : Option Site} (n : StepId) (ho : s.ClaimsOrdered)
    (hh : s.Hands (fun j => decide (j = i)) next) (hn : (s.unclaimed i c).Enters i n)
    (h : (∀ l : LaneId, i ∈ s.claims.records[l].sites → c.entry.instrument = some l ∧ s.claims.records[l].holder = some i)
      ∧ (s.engine.flight.isSome = true ∨ s.engine.openings = [] ∧ s.engine.queue = []) ∧ s.follows i c = some n
      ∧ (s.keeps i c = true ∨ next = none)) : s.ReleasesTo i c next := by
  refine ⟨ho, h.1, idles_when (unclaimed_engine s i c ▸ h.2.1), fun _ => hh, fun m hm => ?_, fun m j _ hk hj => ?_⟩
  · cases h.2.2.1.symm.trans hm
    exact hn
  · rcases h.2.2.2 with hk' | hj'
    · exact absurd (hk.symm.trans hk') nofun
    · exact absurd (hj'.symm.trans hj) nofun

/-- Judges for the last step of a run, from what can be evaluated. -/
theorem judges_when {s : State} {i : Site} {c : StepContext} {next : Option Site} (ho : s.ClaimsOrdered)
    (hh : s.Hands (fun j => decide (j = i)) next)
    (h : s.runs[i].state = .running
      ∧ (∀ l : LaneId, i ∈ s.claims.records[l].sites → c.entry.instrument = some l ∧ s.claims.records[l].holder = some i)
      ∧ (s.engine.flight.isSome = true ∨ s.engine.openings = [] ∧ s.engine.queue = []) ∧ c.entry.next = none) : s.Judges i c next :=
  ⟨h.1, fun _ => releases_when ho hh h.2⟩

/-- A PATCH or a SITE-OPEN that begins leaves the queue and the pending openings alone. -/
theorem begun_queue {s : State} {c : Commit} {next : Option Site} (hw : ∀ p, c.work ≠ .step p) :
    (s.begun c next).engine.queue = s.engine.queue ∧ (s.begun c next).engine.openings = s.engine.openings := by
  have launched (kind : FlightKind) (copy : Crosspoints) :
      (s.launched kind copy).engine.queue = s.engine.queue ∧ (s.launched kind copy).engine.openings = s.engine.openings := by
    unfold State.launched
    dsimp only
    split <;> exact ⟨rfl, rfl⟩
  unfold State.begun
  dsimp only
  split
  all_goals first
    | exact ⟨rfl, rfl⟩
    | exact (hw _ (by assumption)).elim
    | (split <;> first | exact ⟨rfl, rfl⟩ | exact launched _ _)

/-- Chooses for the only commit, a PATCH or a SITE-OPEN, from what can be evaluated. -/
theorem chooses_when {s : State} {c : Commit} (hw : ∀ p, c.work ≠ .step p)
    (h : s.engine.flight.isNone = true ∧ s.engine.flags = 0 ∧ s.engine.openings = [] ∧ s.engine.queue = [c] ∧ held s c = false) :
    s.Chooses [] c [] none :=
  ⟨⟨Option.isNone_iff_eq_none.mp h.1, h.2.1, h.2.2.1⟩, h.2.2.2.1, nofun, h.2.2.2.2, fun _ p hp => absurd hp (hw p),
    fun _ => ⟨nofun, idles_when (.inr ⟨(begun_queue hw).2.trans h.2.2.1, (begun_queue hw).1⟩)⟩⟩

/-- Chooses for the only commit, a site's STEP commit that is not refused, from what can be evaluated. -/
theorem chooses_step_when {s : State} {i : Site} {p : PatchId} {c : Commit} (hc : c.work = .step p ∧ c.place = .site i)
    (h : s.engine.flight.isNone = true ∧ s.engine.flags = 0 ∧ s.engine.openings = [] ∧ s.engine.queue = [c] ∧ held s c = false
      ∧ s.runs[i].state = .running
      ∧ s.runs[i].ctx.map (fun x => decide (x.phase = .apply
          ∧ ∀ l : LaneId, x.entry.instrument = some l → x.entry.settle ≠ 0 ∨ s.lanes[l].state = .up)) = some true
      ∧ (s.withQueue []).refusal c = none
      ∧ let t := (s.withQueue []).begun c none
        t.engine.flight.isSome = true ∨ t.engine.openings = [] ∧ t.engine.queue = []) :
    s.Chooses [] c [] none := by
  refine ⟨⟨Option.isNone_iff_eq_none.mp h.1, h.2.1, h.2.2.1⟩, h.2.2.2.1, nofun, h.2.2.2.2.1, fun j q hw hp => ?_,
    fun _ => ⟨nofun, idles_when h.2.2.2.2.2.2.2.2⟩⟩
  cases hc.2.symm.trans hp
  obtain ⟨x, hx, ha⟩ := Option.map_eq_some_iff.mp h.2.2.2.2.2.2.1
  refine ⟨h.2.2.2.2.2.1, x, hx, (of_decide_eq_true ha).1, (of_decide_eq_true ha).2, fun y hy => ?_⟩
  exact absurd (h.2.2.2.2.2.2.2.1.symm.trans hy) nofun

/-- LeavesCleanly from what can be evaluated. -/
theorem leaves_when {s : State} {l : LaneId} (h : s.lanes[l].state = .up)
    (hc : ∀ (i : Site) (c : StepContext), s.runs[i].ctx = some c → ¬(c.phase = .collect ∧ c.entry.instrument = some l)) :
    s.LeavesCleanly l := ⟨h, fun i ⟨c, hr, hp, hi⟩ => hc i c hr ⟨hp, hi⟩⟩

theorem witness_EmptyQueueLetsTimePass : bench.pending = [] := rfl

theorem witness_RequestLayoutsReadBack :
    Request.nop.wf = true ∧ (Request.writeNoTable 0).wf = true ∧ (Request.writeNoTable 255).wf = true
    ∧ (Request.writeRelayTypes (List.replicate 204 ⟨3, 1, 65535⟩)).wf = true
    ∧ (Request.setLanes (List.replicate 255 ⟨255, 255, 255⟩)).wf = true
    ∧ (Request.patch 1 0 (List.replicate 72 ⟨0, 0, 0, 0, 0, 0, 0, 0⟩)).wf = true := by decide +kernel

theorem witness_RequestIsItsFrame :
    (Instr.setLanes 5 (List.replicate 255 ⟨0, 0, 0⟩)).request = some (5, .setLanes (List.replicate 255 ⟨0, 0, 0⟩))
    ∧ (Request.setLanes (List.replicate 255 ⟨0, 0, 0⟩)).payload.length ≤ 1024
    ∧ (List.replicate 1024 (0xFF : Byte)).length ≤ 1024 := by
  refine ⟨rfl, ?_, ?_⟩ <;> decide +kernel

theorem witness_RstLowHoldsThePart :
    { bench with inputs := { bench.inputs with rstLow := true } }.inputs.rstLow = true ∧ actsInReset (.nop 5) = false
    ∧ actsInReset .transmitChoice = false := by decide +kernel

/-- A response waits, or a RESET FULL has been answered; and n frames wait in the input buffer. -/
def waiting (n : Nat) (closed : Bool) : State :=
  { bench with
    trunk := { bench.trunk with
      responses := if closed then [] else [rsp 1 [0, 0]], closed := closed, input := List.replicate n (hostFrame 2 [0]) } }

theorem witness_EngineStaysConsistent :
    inBreak.ChainHoldsImage ∧ inBreak.FlagsInFlight ∧ step inBreak = .next (inBreak.elapse 1) :=
  ⟨⟨rfl, rfl⟩, fun h => absurd h (by decide +kernel), rfl⟩

theorem witness_NoExclusionKept : inBreak.NoExclusion ∧ step inBreak = .next (inBreak.elapse 1) :=
  ⟨by unfold State.NoExclusion; decide +kernel, rfl⟩

theorem witness_StoresKeepWithin :
    let full : State := { bench with trunk := { bench.trunk with events := List.replicate 16 (0, .safeClear), eventSeq := 4095 } }
    full.TrunkWithin ∧ full.StoresWithin ∧ step full = .next (full.elapse 1) := by
  intro full
  refine ⟨?_, ?_, rfl⟩ <;> constructor <;> decide +kernel

/-- SAFE with a break phase that has no make phase to come. -/
def safeBreak : State :=
  { State.reset with
    engine := { State.reset.engine with
      flight := some { kind := .host 1, opening := cross 0 0, closing := cross 1 1, phase := .breaking, remaining := 2, cut := true }
      openings := [.safeOpen] } }

theorem witness_SafeIsolatedKept :
    safeBreak.SafeIsolated ∧ safeBreak.protection.safe = true ∧ step safeBreak = .next (safeBreak.elapse 1) := by
  refine ⟨⟨?_, fun _ => by decide +kernel, fun _ => rfl, ?_⟩, rfl, rfl⟩
  · rintro t k ⟨⟩ hk
    cases hk
  · rintro - t ⟨⟩ -
    exact .inl rfl

theorem witness_BadRequestsAnswered :
    (bench.Quiet ∧ bench.Listening)
    ∧ (readRequest ((0x15 : Byte) :: List.replicate 1023 0) = none ∧ (List.replicate 1023 (0 : Byte)).length ≤ 1023)
    ∧ 0x14 < (0x15 : Byte).toNat
    ∧ ((0x14 : Byte).toNat ∈ [0x00, 0x0F, 0x11, 0x12, 0x13, 0x14] ∧ ([0] : List Byte).length ≠ 0)
    ∧ ((0x10 : Byte).toNat ∈ [0x01, 0x06, 0x08, 0x09, 0x0A, 0x0D, 0x10] ∧ ([] : List Byte).length ≠ 1)
    ∧ ((0x0C : Byte).toNat ∈ [0x0B, 0x0C] ∧ ([0] : List Byte).length ≠ 2)
    ∧ ([0, 0, 0] : List Byte).length ≠ 4 ∧ ([0, 0] : List Byte).length ≠ 3 ∧ ([0, 0] : List Byte).length ≠ 3 * (1 : Byte).toNat
    ∧ ([0, 0, 0, 0] : List Byte).length ≠ 5 * (1 : Byte).toNat ∧ ([0] : List Byte).length ≠ 14 * (0 : Byte).toNat :=
  ⟨ready_when (by decide +kernel), by decide +kernel⟩

theorem witness_ReadStatusAnswers : (State.reset.Quiet ∧ State.reset.Listening) ∧ 1 < (2 : Byte).toNat ∧ (1 : Byte).toNat ≤ 1 :=
  ⟨ready_when (by decide +kernel), by decide⟩

theorem witness_ReadTableAnswers :
    (bench.Quiet ∧ bench.Listening) ∧ ((3 : Half).toNat + (1 : Byte).toNat ≤ tableSize 1) ∧ ¬(3 : Half).toNat + (2 : Byte).toNat ≤ tableSize 1 :=
  ⟨ready_when (by decide +kernel), by decide⟩

theorem witness_MatrixAnswers : (fixture.Quiet ∧ fixture.Listening) ∧ 11 < (12 : Byte).toNat ∧ (11 : Byte).toNat ≤ 11 :=
  ⟨ready_when (by decide +kernel), by decide⟩

/-- Site 0 holds the meter, for which site 3 waits 1.5 ms more. -/
def queueing : State :=
  let s := running 3 (inPhase { measuring 2 0 with settle := 1 } .claim) (holding 2 0 [3] (instrumentUp 2 12 bench))
  { s with claims := { s.claims with timers := s.claims.timers.set 3 (some 1500) } }

theorem witness_ReadSiteAnswers :
    (queueing.Quiet ∧ queueing.Listening)
    ∧ (∀ k : LaneId, queueing.claims.records[k].holder = some 0 ↔ k = 2) ∧ (∀ k : LaneId, queueing.claims.records[k].holder ≠ some 3)
    ∧ (∀ k : LaneId, 0 ∉ queueing.claims.records[k].waits)
    ∧ (∀ k : LaneId, 3 ∈ queueing.claims.records[k].waits ↔ k = 2) ∧ queueing.claims.timers[(3 : Site)] = some 1500 :=
  ⟨ready_when (by decide +kernel), by decide +kernel⟩

theorem witness_MatrixTablesWritten :
    (bench.Quiet ∧ bench.Listening) ∧ bench.MatrixIdle ∧ (Request.writeRelayTypes [⟨3, 1, 65535⟩]).wf = true
    ∧ (Request.writeBuses [⟨7, 7, 3, 0x7F⟩]).wf = true ∧ (queueing.Quiet ∧ queueing.Listening) ∧ ¬queueing.MatrixIdle := by
  refine ⟨ready_when (by decide +kernel), ?_, by decide +kernel, by decide +kernel, ready_when (by decide +kernel), fun h => ?_⟩
  · unfold State.MatrixIdle; decide +kernel
  · exact absurd (h.1 3) (by decide +kernel)

theorem witness_SiteTableWritten :
    (bench.Quiet ∧ bench.Listening) ∧ (bench.engine.queue = [] ∨ bench.engine.flight ≠ none) ∧ (Request.writeSites [⟨7, 0, 12, 31, 7, 1023, 1, 1, 32, 3⟩]).wf = true :=
  ⟨ready_when (by decide +kernel), by decide +kernel⟩

theorem witness_LaneTablesWritten :
    (bench.Quiet ∧ bench.Listening) ∧ (Request.writeInstruments [⟨11, 239, 7, 8⟩]).wf = true ∧ bench.engine.queue = []
    ∧ (Request.writeChannels [⟨95, 7, 0, 0, 0xF1⟩]).wf = true :=
  ⟨ready_when (by decide +kernel), by decide +kernel⟩

theorem witness_UngatedTablesWritten :
    (bench.Quiet ∧ bench.Listening) ∧ (bench.engine.queue = [] ∨ bench.engine.flight ≠ none) ∧ (Request.writeLimits [⟨511, 0, 0, 0, 3⟩]).wf = true
    ∧ (Request.writePatches [⟨255, [⟨11, 0, 3, 1, 1, 1, 0, 0⟩]⟩]).wf = true
    ∧ (Request.writeSteps [⟨1023, 0xFFFF, 0xFF, 7, 1, 63, 0, 0xFFFF, 0, 1, 15, 0xFFFF⟩]).wf = true :=
  ⟨ready_when (by decide +kernel), by decide +kernel⟩

theorem witness_EntriesReadBack :
    (RelayTypeRaw.read ⟨3, 65535, 1⟩).isSome ∧ (BusRaw.read ⟨7, 0xFF, 3, 0x7F⟩).isSome
    ∧ (SiteRaw.read ⟨7, 0, 12, 31, 7, 1023, 1, 65535, 32, 3⟩).isSome ∧ (InstrumentRaw.read ⟨11, 239, 7, 8⟩).isSome
    ∧ (ChannelRaw.read ⟨95, 7, 0x800000, 0xFFFF, 0xF1⟩).isSome ∧ (LimitRaw.read ⟨511, 0x800000, 0x7FFFFF, 0xFFFF, 3⟩).isSome
    ∧ (PatchRaw.read ⟨255, List.replicate 8 ⟨11, 11, 3, 0xFF, 0xFF, 0xFF, 0, 0⟩⟩).isSome
    ∧ (StepRaw.read ⟨1023, 255, 11, 7, 1, 63, 0, 511, 0, 1, 15, 1023⟩).isSome ∧ (TapRaw.read ⟨3, 1, 239, 7, 1⟩).isSome := by
  decide +kernel

theorem witness_HaltAndCreditAnswered :
    (queueing.Quiet ∧ queueing.Listening) ∧ (7 < (8 : Byte).toNat ∨ (1 : Byte) = 0) ∧ (7 < (7 : Byte).toNat ∨ (0 : Byte) = 0)
    ∧ (1 : Byte) ≠ 0 := ⟨ready_when (by decide +kernel), by decide⟩

/-- A bench on which the first step of site 7 has an instrument or a patch. -/
def firstStep (e : StepEntry) (s : State) : State := { s with tables := { s.tables with steps := s.tables.steps.set 0 e } }

/-- A transition of PATCH in its make phase. -/
def busy (s : State) : State :=
  { s with
    engine := { s.engine with
      flight := some { kind := .host 0x10, opening := 0, closing := cross 0 0, phase := .making, remaining := 5, cut := false } } }

theorem witness_StartActs_refused :
    (State.reset.Quiet ∧ State.reset.Listening) ∧ ∀ i : Site, (0xFF : SiteMask).getLsbD i = true → State.reset.startCode i ≠ 0 :=
  ⟨ready_when (by decide +kernel), by decide +kernel⟩

/-- Site 7 goes on to a step with a run record, and the request is answered. -/
def linkedTo (n : StepId) (answer : List Byte) (s : State) : State :=
  (s.heard.linked 7 n
    { s.runs[7] with
      state := .running, step := n, number := if n = 0 then 1 else s.runs[7].number, ctx := some (s.atStep n .claim none) }).answer 1 answer

/-- The STEP commit of site 7, for patch 255, as it enters the queue. -/
def entered : Commit := { place := .site 7, work := .step 255, holdLimit := 1000, remaining := 1000000 }

/-- A step with an instrument that is free and with patch 255. -/
def measuringBehindPatch : StepEntry := { measuring 2 0 with patch := some 255 }

/-- The first step of site 7 has nothing; an instrument that is free, with a trigger at once and after a time; one that site 0 holds; a
patch behind a transition, without and with an instrument. -/
theorem witness_StartActs_goes :
    (∀ j : Site, (0b10000000 : SiteMask).getLsbD j = true ↔ j = 7)
    ∧ ∀ s ∈ [bench, firstStep (measuring 2 0) (instrumentUp 2 12 bench),
          firstStep { measuring 2 0 with settle := 1 } (withLane 2 (fun x => { x with state := .off }) (instrumentUp 2 12 bench)),
          firstStep measuringBehindPatch (holding 2 0 [3] (instrumentUp 2 12 bench)),
          firstStep { StepEntry.reset with patch := some 255 } (busy bench), firstStep measuringBehindPatch (busy (instrumentUp 2 12 bench))],
        (s.Quiet ∧ s.Listening) ∧ s.startCode 7 = 0 ∧ (∀ l : LaneId, 7 ∉ s.claims.records[l].sites)
        ∧ s.Enters 7 s.tables.sites[(7 : Site)].startStep ∧ (linkedTo s.tables.sites[(7 : Site)].startStep [0x08, 0, 0] s).Idles := by
  refine ⟨by decide, ?_⟩
  simp only [List.forall_mem_cons]
  refine ⟨⟨ready_when ?_, ?_, ?_, enters_when ?_, idles_when ?_⟩, ⟨ready_when ?_, ?_, ?_, enters_when ?_, idles_when ?_⟩,
    ⟨ready_when ?_, ?_, ?_, enters_when ?_, idles_when ?_⟩, ⟨ready_when ?_, ?_, ?_, enters_when ?_, idles_when ?_⟩,
    ⟨ready_when ?_, ?_, ?_, enters_when ?_, idles_when ?_⟩, ⟨ready_when ?_, ?_, ?_, enters_when ?_, idles_when ?_⟩,
    List.forall_mem_nil _⟩ <;> decide +kernel

/-- The first step's patch enters the queue of the free engine, which begins it: one that changes nothing, without and with an instrument
that is granted, and one that connects the site's bus. -/
theorem witness_StartActs_begins :
    let op : PatchOp := { group := 0, rep := 0, kind := .set, pattern := 1, mask := 1, enable := 1, force := 0, forceClose := 0 }
    let owned (s : State) : State :=
      { s with
        tables := { s.tables with
          buses := s.tables.buses.set 0 { s.tables.buses[0] with owner := some 7 }, patches := s.tables.patches.set 255 [op] } }
    ∀ s ∈ [firstStep { StepEntry.reset with patch := some 255 } bench, firstStep measuringBehindPatch (instrumentUp 2 12 bench),
        firstStep measuringBehindPatch (owned (instrumentUp 2 12 bench))],
      (s.Quiet ∧ s.Listening) ∧ s.startCode 7 = 0 ∧ (∀ l : LaneId, 7 ∉ s.claims.records[l].sites)
      ∧ s.Enters 7 s.tables.sites[(7 : Site)].startStep
      ∧ (linkedTo s.tables.sites[(7 : Site)].startStep [0x08, 0, 0] s).Chooses [] entered [] none := by
  intro op owned
  simp only [List.forall_mem_cons]
  refine ⟨⟨ready_when ?_, ?_, ?_, enters_when ?_, chooses_step_when (i := 7) (p := 255) ?_ ?_⟩,
    ⟨ready_when ?_, ?_, ?_, enters_when ?_, chooses_step_when (i := 7) (p := 255) ?_ ?_⟩,
    ⟨ready_when ?_, ?_, ?_, enters_when ?_, chooses_step_when (i := 7) (p := 255) ?_ ?_⟩, List.forall_mem_nil _⟩ <;> decide +kernel

/-- The lane of the first step has no instrument; and it has one that only site 0 may use. -/
theorem witness_StartActs_fails :
    ∀ s ∈ [firstStep (measuring 2 0) bench,
        firstStep (measuring 2 0) { instrumentUp 2 12 bench with
          tables := { bench.tables with
            instruments := bench.tables.instruments.set 2 { node := 12, policy := some 0, channels := 2 } } }],
      ((s.Quiet ∧ s.Listening) ∧ s.startCode 7 = 0 ∧ (∀ l : LaneId, 7 ∉ s.claims.records[l].sites)
        ∧ s.tables.steps[s.tables.sites[(7 : Site)].startStep].instrument = some 2)
      ∧ (s.Refuses 7 2 .noInstrument ∨ s.Refuses 7 2 .foreign)
      ∧ let t : State := { s.heard with
          runs := s.runs.set 7 { s.runs[7] with
            state := .running, number := 1, ctx := some (s.atStep 0 .claim none) } }.answer 1 [0x08, 0, 0]
        ∀ cause : Cause, t.Judges 7 ((s.atStep 0 .claim none).judging t cause) none := by
  simp only [List.forall_mem_cons]
  refine ⟨⟨⟨ready_when ?_, ?_⟩, .inl (.inl ⟨rfl, ?_⟩), fun cause => judges_when (claims_when ?_) (nobody_when ?_) ?_⟩,
    ⟨⟨ready_when ?_, ?_⟩, .inr (.inr ⟨rfl, ?_⟩), fun cause => judges_when (claims_when ?_) (nobody_when ?_) ?_⟩, List.forall_mem_nil _⟩ <;>
    (try cases cause) <;> decide +kernel

/-- A site that is PAUSED. -/
def pausedSite (i : Site) (s : State) : State := withRun i (fun r => { r with state := .paused, number := 7 }) s

/-- Site 7 is PAUSED at a step whose link is step 1023, the given one. -/
def pausedBefore (e : StepEntry) (s : State) : State :=
  let r := firstStep { StepEntry.reset with next := some 1023 } (pausedSite 7 s)
  { r with tables := { r.tables with steps := r.tables.steps.set 1023 e } }

theorem witness_ResumeFollowsLink :
    (bench.Quiet ∧ bench.Listening) ∧ (∀ i : Site, (0xFF : SiteMask).getLsbD i = true → bench.runs[i].state ≠ .paused)
    ∧ (let s := pausedSite 7 bench
       (s.Quiet ∧ s.Listening) ∧ (∀ j : Site, (0xFF : SiteMask).getLsbD j = true ∧ s.runs[j].state = .paused ↔ j = 7)
       ∧ (∀ l : LaneId, 7 ∉ s.claims.records[l].sites) ∧ s.tables.steps[s.runs[(7 : Site)].step].next = none)
    ∧ ∀ s ∈ [pausedBefore StepEntry.reset bench, pausedBefore (measuring 2 0) (instrumentUp 2 12 bench),
          pausedBefore measuringBehindPatch (holding 2 0 [3] (instrumentUp 2 12 bench)),
          pausedBefore measuringBehindPatch (busy (instrumentUp 2 12 bench))],
        (s.Quiet ∧ s.Listening) ∧ (∀ j : Site, (0xFF : SiteMask).getLsbD j = true ∧ s.runs[j].state = .paused ↔ j = 7)
        ∧ (∀ l : LaneId, 7 ∉ s.claims.records[l].sites) ∧ s.tables.steps[s.runs[(7 : Site)].step].next = some 1023
        ∧ s.Enters 7 1023 ∧ (linkedTo 1023 [0x0A, 0, 0x80] s).Idles := by
  simp only [List.forall_mem_cons]
  refine ⟨ready_when ?_, ?_, ⟨ready_when ?_, ?_⟩, ⟨ready_when ?_, ?_, ?_, ?_, enters_when ?_, idles_when ?_⟩,
    ⟨ready_when ?_, ?_, ?_, ?_, enters_when ?_, idles_when ?_⟩, ⟨ready_when ?_, ?_, ?_, ?_, enters_when ?_, idles_when ?_⟩,
    ⟨ready_when ?_, ?_, ?_, ?_, enters_when ?_, idles_when ?_⟩, List.forall_mem_nil _⟩ <;> decide +kernel

/-- The linked step's patch begins; and the linked step's instrument is not there. -/
theorem witness_ResumeFollowsLink_begins :
    (let s := pausedBefore measuringBehindPatch (instrumentUp 2 12 bench)
     (s.Quiet ∧ s.Listening) ∧ (∀ l : LaneId, 7 ∉ s.claims.records[l].sites) ∧ s.Enters 7 1023
     ∧ (linkedTo 1023 [0x0A, 0, 0x80] s).Chooses [] entered [] none)
    ∧ let s := pausedBefore (measuring 2 0) bench
      (s.Quiet ∧ s.Listening) ∧ s.tables.steps[(1023 : StepId)].instrument = some 2 ∧ s.Refuses 7 2 .noInstrument
      ∧ let t : State := { s.heard with
          runs := s.runs.set 7 { s.runs[7] with
            state := .running, step := 1023, ctx := some (s.atStep 1023 .claim none) } }.answer 1 [0x0A, 0, 0x80]
        t.Judges 7 ((s.atStep 1023 .claim none).judging t .noInstrument) none := by
  refine ⟨⟨ready_when ?_, ?_, enters_when ?_, chooses_step_when (i := 7) (p := 255) ?_ ?_⟩, ready_when ?_, ?_, .inl ⟨rfl, ?_⟩,
    judges_when (claims_when ?_) (nobody_when ?_) ?_⟩ <;> decide +kernel

/-- Site 0 is PAUSED with the meter, for which site 3 waits, while a transition is in flight. -/
def giving : State := busy (pausedSite 0 queueing)

theorem witness_AbortStopsSites :
    1 < (2 : Byte).toNat ∧ (1 : Byte).toNat ≤ 1
    ∧ (∀ s ∈ [pausedSite 7 (busy bench), pausedSite 7 bench, pausedSite 7 (wired (cross 7 255) bench)],
        ((s.Quiet ∧ s.Listening) ∧ s.ClaimsOrdered ∧ s.WaitersClaim ∧ s.Hands (fun i => (0x80 : SiteMask).getLsbD i) none)
        ∧ (s.engine.flight ≠ none ∨ s.engine.flight = none ∧ s.engine.queue = [] ∧ s.tables.sites[(7 : Site)].openOnAbort = true
          ∧ 1 ≤ s.tables.sites[(7 : Site)].holdLimit
          ∧ ∀ c : ChannelId, s.tables.channels[c].attach = none))
    ∧ ((giving.Quiet ∧ giving.Listening) ∧ giving.ClaimsOrdered ∧ giving.WaitersClaim
      ∧ giving.Hands (fun i => (0x01 : SiteMask).getLsbD i) (some 3)) ∧ giving.engine.flight ≠ none := by
  simp only [List.forall_mem_cons]
  refine ⟨by decide, by decide,
    ⟨⟨⟨ready_when ?_, claims_when ?_, waiters_when ?_, nobody_when ?_⟩, ?_⟩,
      ⟨⟨ready_when ?_, claims_when ?_, waiters_when ?_, nobody_when ?_⟩, ?_⟩,
      ⟨⟨ready_when ?_, claims_when ?_, waiters_when ?_, nobody_when ?_⟩, ?_⟩, List.forall_mem_nil _⟩,
    ⟨ready_when ?_, claims_when ?_, waiters_when ?_, hands_when 2 ?_⟩, ?_⟩ <;>
    decide +kernel

theorem witness_PresentChangeActs :
    bench.AtRest ∧ bench.inputs.present[(7 : Site)] = true ∧ bench.runs[(7 : Site)].state = .idle
    ∧ (giving.AtRest ∧ giving.ClaimsOrdered ∧ giving.WaitersClaim ∧ giving.Hands (fun j => decide (j = 0)) (some 3))
    ∧ giving.inputs.present[(0 : Site)] ≠ false ∧ giving.runs[(0 : Site)].state ≠ .idle ∧ giving.engine.flight ≠ none
    ∧ ∀ j : Site, j ≠ 0 → giving.tables.sites[j].panel ≠ giving.tables.sites[(0 : Site)].panel :=
  ⟨rest_when (by decide +kernel), by decide +kernel, by decide +kernel,
    ⟨rest_when (by decide +kernel), claims_when (by decide +kernel), waiters_when (by decide +kernel), hands_when 2 (by decide +kernel)⟩,
    by decide +kernel⟩

theorem witness_CrosspointSets :
    let op : PatchOp := { group := 1, rep := 1, kind := .flip, pattern := 5, mask := 0xFFFFFFFF, enable := 3, force := 1, forceClose := 1 }
    383 < 384 ∧ 31 ≤ 31 ∧ 9 + op.group + op.rep ≤ 11 ∧ 3071 < 3072 := by decide

/-- All four host places are taken. -/
def crowded : State :=
  { busy bench with
    engine := { (busy bench).engine with
      queue := (List.finRange 4).map fun k => { place := .host k, work := .host 0x20 false [], holdLimit := 50, remaining := 1 } } }

/-- The four host places are taken, a PATCH transition is in flight, and site 3 waits for the meter that site 0 holds. -/
def ordered : State := { queueing with engine := crowded.engine }

theorem witness_QueuesKeepOrder : ordered.QueuesOrdered ∧ ordered.CountsWithin ∧ step ordered = .next (ordered.elapse 1) := by
  have waits : ∀ (l : LaneId) (i : Site), i ∈ ordered.claims.records[l].sites → l = 2 ∧ (i = 0 ∨ i = 3) := by decide +kernel
  have only : ∀ (l : LaneId) (i : Site), i ∈ ordered.claims.records[l].waits → l = 2 ∧ i = 3 := by decide +kernel
  have hosts : ∀ c ∈ ordered.engine.queue, ∃ k, c = { place := .host k, work := .host 0x20 false [], holdLimit := 50, remaining := 1 } := by
    intro c hc
    obtain ⟨k, -, rfl⟩ := List.mem_map.mp hc
    exact ⟨k, rfl⟩
  refine ⟨⟨by decide +kernel, ?_, nofun, ?_, by decide +kernel, claims_when (by decide +kernel), ?_, ?_, by decide +kernel⟩, ?_, rfl⟩
  · intro c hc
    obtain ⟨k, rfl⟩ := hosts c hc
    exact .inl ⟨k, _, _, _, rfl, rfl⟩
  · rintro i (⟨c, hc, hp, -⟩ | h)
    · obtain ⟨k, rfl⟩ := hosts c hc
      cases hp
    · cases h
  · intro l i hi
    obtain ⟨rfl, rfl⟩ := only l i hi
    exact ⟨rfl, _, rfl, rfl, rfl⟩
  · intro i c l hc hp hi
    obtain ⟨rfl, rfl | rfl⟩ := waits l i hi
    · cases hc
    · cases hc; rfl
  · refine ⟨by decide +kernel, by decide +kernel, by decide +kernel, by decide +kernel, ?_, ?_, by decide +kernel⟩
    · intro k
      exact (congrArg StepEntry.sampleCode (Vector.getElem_replicate k.isLt)).le.trans (Nat.zero_le _)
    · exact contexts_when (by decide +kernel)

theorem witness_PatchRefusedOrWaits :
    (Request.patch 1 0 (List.replicate 8 ⟨11, 0, 3, 1, 1, 1, 0, 0⟩)).wf = true
    ∧ (¬(2 : Byte).toNat ≤ 1 ∧ ¬(List.replicate 9 (0 : Byte)).length ≤ 8)
    ∧ ((1 : Byte).toNat ≤ 1 ∧ (List.replicate 8 (⟨11, 0, 3, 1, 1, 1, 0, 0⟩ : OpRaw)).length ≤ 8
      ∧ ∀ op ∈ List.replicate 8 (⟨11, 0, 3, 1, 1, 1, 0, 0⟩ : OpRaw), (OpRaw.read op).isSome ∧ op.group.toNat + op.rep.toNat ≤ 11)
    ∧ ((State.reset.Quiet ∧ State.reset.Listening) ∧ State.reset.protection.safe = true)
    ∧ ((crowded.Quiet ∧ crowded.Listening) ∧ crowded.protection.safe = false
      ∧ ∀ k : Fin 4, ∃ c ∈ crowded.engine.queue, c.place = .host k)
    ∧ ((busy bench).Quiet ∧ (busy bench).Listening) ∧ (busy bench).protection.safe = false ∧ (busy bench).engine.flight ≠ none
    ∧ (∀ c ∈ (busy bench).engine.queue, c.place ≠ .host 0) ∧ ∀ j : Fin 4, j < 0 → ∃ c ∈ (busy bench).engine.queue, c.place = .host j :=
  ⟨by decide +kernel, by decide, by decide +kernel, ⟨ready_when (by decide +kernel), by decide +kernel⟩,
    ⟨ready_when (by decide +kernel), by decide +kernel⟩, ready_when (by decide +kernel), by decide +kernel⟩

/-- Operations that would be refused EXCLUSION, that would be refused BUS_FOREIGN, that change nothing, that open nothing, that open. -/
theorem witness_PatchBegins :
    (fixture.Quiet ∧ fixture.Listening) ∧ fixture.protection.safe = false ∧ fixture.engine.flight = none ∧ fixture.engine.queue = []
    ∧ (∀ c : ChannelId, fixture.tables.channels[c].attach = none)
    ∧ (∀ ops ∈ [twoOperations.take 1, [⟨0, 0, 1, 1, 0, 0, 1, 1⟩], [], [⟨11, 0, 1, 0x80, 0, 0, 1, 1⟩], twoOperations],
        (Request.patch 0 1 ops).wf = true ∧ ops.length ≤ 8
        ∧ ∀ op ∈ ops, (OpRaw.read op).isSome ∧ op.group.toNat + op.rep.toNat ≤ 11)
    ∧ (let copy (ops : List OpRaw) : Crosspoints := (ops.filterMap OpRaw.read).foldl (fun x op => op.apply 0 0 x) fixture.matrix.image
       hasExclusion fixture.tables.buses (copy (twoOperations.take 1)) = true
       ∧ (hasExclusion fixture.tables.buses (copy [⟨0, 0, 1, 1, 0, 0, 1, 1⟩]) = false
         ∧ hasForeign fixture.tables.buses fixture.tables.sites (copy [⟨0, 0, 1, 1, 0, 0, 1, 1⟩]) = true)
       ∧ (hasExclusion fixture.tables.buses (copy [⟨11, 0, 1, 0x80, 0, 0, 1, 1⟩]) = false
         ∧ hasForeign fixture.tables.buses fixture.tables.sites (copy [⟨11, 0, 1, 0x80, 0, 0, 1, 1⟩]) = false
         ∧ fixture.matrix.image &&& ~~~copy [⟨11, 0, 1, 0x80, 0, 0, 1, 1⟩] = 0)
       ∧ hasExclusion fixture.tables.buses (copy twoOperations) = false
       ∧ hasForeign fixture.tables.buses fixture.tables.sites (copy twoOperations) = false
       ∧ fixture.matrix.image &&& ~~~copy twoOperations ≠ 0) :=
  ⟨ready_when (by decide +kernel), by decide +kernel⟩

/-- The make phase of a transition of each kind; where it is site 2's, its step is in APPLY. -/
def inMake (kind : FlightKind) : State :=
  let c := inPhase { StepEntry.reset with patch := some 12, settle := 1000 } .apply
  { if kind = .step (some 2) then running 2 c bench else bench with
    engine := { bench.engine with
      flight := some { kind := kind, opening := 0, closing := cross 0 0, phase := .making, remaining := 5, cut := false } }
    trunk := { bench.trunk with resetRun := some 9 } }

/-- A transition of no one in its make phase, behind which wait a commit that a live bus holds and another. -/
def choosing (c : Commit) (s : State) : State :=
  let wait : Commit :=
    { place := .host 0
      work := .host 0x20 false [{ group := 0, rep := 0, kind := .set, pattern := 0, mask := 0, enable := 1, force := 0, forceClose := 0 }]
      holdLimit := 50, remaining := 9 }
  { s with
    tables := { s.tables with channels := s.tables.channels.set 0 { s.tables.channels[0] with attach := some 0, output := .on } }
    engine := { (inMake (.step none)).engine with queue := [wait, c] } }

/-- The PATCH commit that may begin, with the time left on its hold timer. -/
def otherCommit (left : Nat) : Commit := { place := .host 1, work := .host 0x21 false [], holdLimit := 50, remaining := left }

/-- The queue when the transition of `choosing` is complete: the first commit is held, the second is not. -/
theorem choosing_held :
    ∀ left : Nat, left ∈ [4, 6] →
      let u := ((choosing (otherCommit left) bench).elapse 5).freed
      u.engine.queue.map (fun c => (c.place, c.remaining, held u c)) = [(.host 0, 4, true), (.host 1, left - 5, false)] := by
  intro left hl
  simp only [List.mem_cons, List.not_mem_nil, or_false] at hl
  rcases hl with rfl | rfl <;> decide +kernel

/-- Spec R30 c: a commit that may begin at the instant at which its hold timer runs out begins or expires. -/
theorem test_either_outcome :
    activities ((choosing (otherCommit 5) bench).elapse 5).freed = [.engine, .lapse] := by decide +kernel

theorem witness_CommitsBegin :
    (∀ left : Nat, left ∈ [4, 6] →
      (choosing (otherCommit left) bench).AtRest
      ∧ (choosing (otherCommit left) bench).engine.flight.map (fun f => (f.kind, f.phase, f.remaining)) = some (.step none, .making, 5)
      ∧ (choosing (otherCommit left) bench).engine.openings = []
      ∧ ∀ (v : State) (cause : Option Cause), v.StepApplies (otherCommit (left - 5)) cause none)
    ∧ (let c : Commit := { place := .site 7, work := .step 255, holdLimit := 1, remaining := 9 }
       let s := choosing c (running 7 (inPhase { StepEntry.reset with patch := some 255 } .apply) bench)
       s.AtRest ∧ ∀ v : State, v.runs = s.runs → v.refusal c = none → v.StepApplies c (v.refusal c) none)
    ∧ ∀ s ∈ [inMake (.step none), wired (cross 1 1) (inMake (.step none))],
        ({ s with engine := { s.engine with openings := [.safeOpen] } } : State).AtRest := by
  refine ⟨fun left hl => ⟨rest_when ?_, rfl, rfl, ?_⟩, ⟨rest_when (by decide +kernel), ?_⟩, ?_⟩
  · simp only [List.mem_cons, List.not_mem_nil, or_false] at hl
    rcases hl with rfl | rfl <;> decide +kernel
  · intro v cause i p hw
    cases hw
  · intro v hr hn i p hw hp
    cases hw; cases hp
    rw [hr, hn]
    exact ⟨rfl, _, rfl, rfl, nofun, nofun⟩
  · simp only [List.forall_mem_cons]
    refine ⟨rest_when ?_, rest_when ?_, List.forall_mem_nil _⟩ <;> decide +kernel

/-- A waiting commit, for PATCH, that touches bus 0, with the time left on its hold timer. -/
def patching (left : Nat) : Commit :=
  { place := .host 0
    work := .host 0x20 false [{ group := 0, rep := 0, kind := .set, pattern := 0, mask := 0, enable := 1, force := 0, forceClose := 0 }]
    holdLimit := 50, remaining := left }

/-- A commit waits, and a channel with an output is attached to bus 0. -/
def awaiting (c : Commit) (channel : ChannelId) (output : Output) (s : State) : State :=
  { s with
    tables := { s.tables with
      channels := s.tables.channels.set channel { s.tables.channels[channel] with attach := some 0, output := output } }
    engine := { s.engine with queue := [c] } }

/-- The channel write that detaches the live channel, with time left on the hold timer and with none. -/
theorem witness_LaneTablesWritten_begins :
    ∀ left ∈ [1, 0],
      let s := awaiting (patching left) 95 .on bench
      (s.Quiet ∧ s.Listening) ∧ (Request.writeChannels [⟨95, 0xFF, 0, 0, 0⟩]).wf = true
      ∧ (s.tablesWritten 1 0 { s.tables with
          channels := s.tables.channels.set 95 { attach := none, cal := { offset := 0, gain := 0, exponent := 0 }, output := .on }
          }).Chooses [] (patching left) [] none := by
  simp only [List.forall_mem_cons]
  refine ⟨⟨ready_when ?_, ?_, chooses_when nofun ?_⟩, ⟨ready_when ?_, ?_, chooses_when nofun ?_⟩, List.forall_mem_nil _⟩ <;>
    decide +kernel

/-- The patch write after which the waiting step touches no bus. -/
theorem witness_UngatedTablesWritten_begins :
    let c : Commit := { place := .site 7, work := .step 255, holdLimit := 1, remaining := 1 }
    let op : PatchOp := { group := 0, rep := 0, kind := .set, pattern := 0, mask := 0, enable := 1, force := 0, forceClose := 0 }
    let r := running 7 (inPhase { StepEntry.reset with patch := some 255 } .apply) bench
    let s := awaiting c 95 .on { r with tables := { r.tables with patches := r.tables.patches.set 255 [op] } }
    (s.Quiet ∧ s.Listening) ∧ (Request.writePatches [⟨255, []⟩]).wf = true
    ∧ (s.tablesWritten 1 0 { s.tables with patches := s.tables.patches.set 255 [] }).Chooses [] c [] none := by
  intro c op r s
  exact ⟨ready_when (by decide +kernel), by decide +kernel, chooses_step_when (i := 7) (p := 255) (by decide +kernel) (by decide +kernel)⟩

/-- A PATCH whose hold timer has run out begins or expires: no other commit is there to begin after it. -/
theorem witness_UngatedTablesWritten_lapses :
    let s := awaiting (patching 0) 95 .off bench
    s.Chooses [] (patching 0) [] none ∧ s.Lapses [] (patching 0) [] none :=
  ⟨chooses_when nofun (by decide +kernel), fun _ _ => nofun, nofun, idles_when (by decide +kernel)⟩

/-- The status frame that reports the live channel OFF. -/
theorem witness_LaneTrafficRouted_begins :
    let s := awaiting (patching 1) 16 .on (instrumentUp 2 12 bench)
    s.AtRest ∧ s.lanes[(2 : LaneId)].state = .up ∧ s.tables.instruments[(2 : LaneId)].node = 12
    ∧ (readFrame ({ dest := 240, source := 12, kind := 0x21, flags := 0, tag := 0, payload := [1, 0, 0] } : Frame).bytes).map
        (fun f => (f.kind, f.source, readReports f.payload)) = some (0x21, 12, some [(0, .off)])
    ∧ ({ s with tables := { s.tables with
        channels := Vector.ofFn fun k : ChannelId =>
          if laneOfChannel k = 2 then { s.tables.channels[k] with output := .off } else s.tables.channels[k] } } : State).Chooses
        [] (patching 1) [] none := by
  refine ⟨rest_when ?_, ?_, ?_, ?_, chooses_when nofun ?_⟩ <;> decide +kernel

/-- Site 0 is PAUSED with the meter, which guards bus 0; its abort frees the waiting commit. -/
theorem witness_AbortStopsSites_begins :
    let s := awaiting (patching 1) 16 .off (pausedSite 0 (holding 2 0 [] bench))
    let why (i : Site) : Option EndCause := if (1 : SiteMask).getLsbD i then some .abortHost else none
    let b : State := { s with tables := { s.tables with sites := s.tables.sites.set 0 { s.tables.sites[0] with openOnAbort := false } } }
    ((b.Quiet ∧ b.Listening) ∧ b.ClaimsOrdered ∧ b.WaitersClaim ∧ b.Hands (fun i => (1 : SiteMask).getLsbD i) none)
    ∧ b.engine.flight = none ∧ 1 ≤ b.tables.sites[(0 : Site)].holdLimit
    ∧ (((b.heard.stopped why true).handedOn none).answer 1 [0x0B, 0, 1]).Chooses [] (patching 1) [] none := by
  refine ⟨⟨ready_when ?_, claims_when ?_, waiters_when ?_, nobody_when ?_⟩, ?_, ?_, chooses_when nofun ?_⟩ <;> decide +kernel

/-- The board of the site that holds the meter is removed; the waiting commit is no longer held. -/
theorem witness_PresentChangeActs_begins :
    let s := awaiting (patching 1) 16 .off (pausedSite 0 (holding 2 0 [] bench))
    let b : State := { s with tables := { s.tables with sites := s.tables.sites.set 0 { s.tables.sites[0] with openOnAbort := false } } }
    let u : State := State.eventRaised { b with inputs := { b.inputs with present := b.inputs.present.set 0 false } } (.board 0 false)
    let why (j : Site) : Option EndCause :=
      if b.tables.sites[j].panel ≠ b.tables.sites[(0 : Site)].panel ∨ b.runs[j].state = .idle then none
      else some (if j = 0 then .absent else .abortPanel)
    (b.AtRest ∧ b.ClaimsOrdered ∧ b.WaitersClaim ∧ b.Hands (fun j => (why j).isSome) none)
    ∧ b.inputs.present[(0 : Site)] = true ∧ b.runs[(0 : Site)].state ≠ .idle
    ∧ ((u.stopped why true).handedOn none).Chooses [] (patching 1) [] none := by
  refine ⟨⟨rest_when ?_, claims_when ?_, waiters_when ?_, nobody_when ?_⟩, ?_, ?_, chooses_when nofun ?_⟩ <;> decide +kernel

/-- Transitions of each other kind complete, and a commit waits behind that no bus holds. -/
theorem witness_CommitsBegin_told :
    ∀ kind ∈ [FlightKind.siteOpen 7, .host 0x10, .opening .safeOpen, .opening .runOpen],
      let s := { inMake kind with engine := { (inMake kind).engine with queue := [patching 9] } }
      s.AtRest ∧ (∀ i : Site, kind ≠ .step (some i)) ∧ s.engine.flight.map (fun f => (f.kind, f.phase)) = some (kind, .making)
      ∧ s.engine.openings = []
      ∧ ∀ f, s.engine.flight = some f → ((s.elapse f.remaining).freed.told f).Chooses [] (patching 4) [] none := by
  simp only [List.forall_mem_cons]
  refine ⟨⟨rest_when ?_, nofun, ?_, rfl, ?_⟩, ⟨rest_when ?_, nofun, ?_, rfl, ?_⟩, ⟨rest_when ?_, nofun, ?_, rfl, ?_⟩,
    ⟨rest_when ?_, nofun, ?_, rfl, ?_⟩, List.forall_mem_nil _⟩
  all_goals first
    | decide +kernel
    | rintro f ⟨⟩; exact chooses_when nofun (by decide +kernel)

/-- The step of site 3 ends its collection without and with a sample; its meter guards bus 0, for which a commit waits. -/
theorem witness_CommitsBegin_released :
    ∀ taken ∈ [[], [sample 1]],
      let s := awaiting (patching 44001) 16 .off (metering taken)
      s.AtRest ∧ s.runs[(3 : Site)].state = .running
      ∧ s.runs[(3 : Site)].ctx.map (fun c => (c.phase, c.cause, c.entry.instrument)) = some (.collect, .ok, some 2)
      ∧ s.runs[(3 : Site)].ctx.map (fun c => (c.collectTimer, c.tag)) = some (some 44000, some 0xB011)
      ∧ ∀ c, s.runs[(3 : Site)].ctx = some c →
        let u := (s.elapse 44000).laneSent 2 0x31 0xB011 [BitVec.ofNat 8 c.entry.channel]
        let x := if c.samples = [] then c.judging u .collectTimeout else { c with short := true }.judging u .ok
        (u.withQueue []).Judges 3 x none ∧ u.follows 3 (x.having (u.recordsNow 3 x)) = none
        ∧ (u.judged 3 x none).Chooses [] (patching 1) [] none := by
  simp only [List.forall_mem_cons]
  refine ⟨⟨rest_when (by decide +kernel), by decide +kernel, by decide +kernel, by decide +kernel, ?_⟩,
    ⟨rest_when (by decide +kernel), by decide +kernel, by decide +kernel, by decide +kernel, ?_⟩, List.forall_mem_nil _⟩ <;>
  · rintro c ⟨⟩
    refine ⟨judges_when (claims_when ?_) (nobody_when ?_) ?_, ?_, chooses_when nofun ?_⟩ <;> decide +kernel

theorem witness_PhasesEnd_break :
    inBreak.AtRest ∧ inBreak.engine.flight.map (fun f => (f.phase, f.cut, decide (f.closing ≠ 0))) = some (.breaking, false, true)
    ∧ bench.AtRest ∧ bench.engine.flight = none
    ∧ safeBreak.AtRest ∧ safeBreak.engine.flight.map (fun f => (f.phase, f.cut)) = some (.breaking, true) :=
  ⟨rest_when (by decide +kernel), by decide +kernel, rest_when (by decide +kernel), rfl, rest_when (by decide +kernel), by decide +kernel⟩

theorem witness_PhasesEnd_completes :
    ∀ kind ∈ [FlightKind.step none, .step (some 2), .siteOpen 7, .host 0x10, .opening .safeOpen, .opening .runOpen],
      (inMake kind).AtRest ∧ (inMake kind).engine.flight.map Transition.phase = some .making ∧ (inMake kind).engine.queue = []
      ∧ (inMake kind).engine.openings = [] ∧ (inMake kind).trunk.resetRun = some 9
      ∧ (kind = .step (some 2) → (inMake kind).runs[(2 : Site)].ctx.map (fun x => x.entry.instrument) = some none) := by
  simp only [List.forall_mem_cons]
  refine ⟨⟨rest_when ?_, ?_⟩, ⟨rest_when ?_, ?_⟩, ⟨rest_when ?_, ?_⟩, ⟨rest_when ?_, ?_⟩, ⟨rest_when ?_, ?_⟩, ⟨rest_when ?_, ?_⟩, List.forall_mem_nil _⟩ <;>
    decide +kernel

/-- A step with nothing to settle, on an UP lane and on another. -/
theorem witness_PhasesEnd_triggers :
    let c := inPhase { measuring 2 3 with patch := some 12 } .apply
    let s (state : LaneState) := withLane 2 (fun x => { x with state := state }) (holding 2 2 [] (running 2 c (instrumentUp 2 12 bench)))
    ∀ state ∈ [LaneState.up, .off],
      let s := { s state with engine := (inMake (.step (some 2))).engine }
      s.AtRest ∧ s.lanes[(2 : LaneId)].state = state ∧ c.entry.settle = 0 ∧ s.engine.queue = []
      ∧ let u := (s.elapse 5).freed
        u.Judges 2 (c.judging u .lane) none := by
  simp only [List.forall_mem_cons]
  refine ⟨⟨rest_when ?_, ?_, ?_, ?_, judges_when (claims_when ?_) (nobody_when ?_) ?_⟩,
    ⟨rest_when ?_, ?_, ?_, ?_, judges_when (claims_when ?_) (nobody_when ?_) ?_⟩, List.forall_mem_nil _⟩ <;> decide +kernel

theorem witness_HoldExpires :
    let open7 : Commit := { place := .site 7, work := .siteOpen, holdLimit := 1, remaining := 1000 }
    let s : State := { crowded with engine := { crowded.engine with queue := crowded.engine.queue ++ [open7] } }
    s.AtRest ∧ (∀ c ∈ s.engine.queue, c.place ≠ .site 6) ∧ s.engine.queue = crowded.engine.queue ++ open7 :: []
    ∧ (∀ x ∈ crowded.engine.queue, x.place ≠ open7.place) ∧ s.runs[(7 : Site)].state = .idle
    ∧ crowded.engine.queue.head?.map (fun c => (c.place, c.work)) = some (.host 0, .host 0x20 false []) :=
  ⟨rest_when (by decide +kernel), by decide +kernel⟩

theorem witness_SettleEnds :
    (bench.AtRest ∧ bench.runs[(7 : Site)].ctx = none)
    ∧ (∀ pause : Bool,
        let c := { inPhase StepEntry.reset .settle with settleTimer := some 0 }
        let s := withRun 7 (fun r => { r with pause := pause }) (running 7 c bench)
        s.AtRest ∧ s.runs[(7 : Site)].state = .running ∧ s.runs[(7 : Site)].ctx = some c ∧ c.phase = .settle ∧ c.entry.instrument = none
        ∧ (s.elapse 0).ReleasesTo 7 c none)
    ∧ (let c := { inPhase { StepEntry.reset with next := some 1023 } .settle with settleTimer := some 0 }
       let s := running 7 c bench
       s.AtRest ∧ (s.elapse 0).follows 7 c = some 1023 ∧ (s.elapse 0).ReleasesTo 7 c none)
    ∧ (let c := { inPhase (measuring 2 63) .settle with settleTimer := some 0 }
       let s := withLane 2 (fun x => { x with hostFrames := List.replicate 8 (rsp 1 []) })
         (running 7 c (holding 2 7 [] (instrumentUp 2 12 bench)))
       s.AtRest ∧ s.runs[(7 : Site)].ctx = some c ∧ c.entry.instrument = some 2 ∧ s.lanes[(2 : LaneId)].state = .up) := by
  refine ⟨⟨rest_when (by decide +kernel), rfl⟩, ?_, ⟨rest_when (by decide +kernel), by decide +kernel, ?_⟩,
    rest_when (by decide +kernel), by decide +kernel⟩
  · rintro (_ | _) <;>
      exact ⟨rest_when (by decide +kernel), by decide +kernel, rfl, rfl, rfl,
        releases_when (claims_when (by decide +kernel)) (nobody_when (by decide +kernel)) (by decide +kernel)⟩
  · refine links_when 1023 (claims_when ?_) (nobody_when ?_) (enters_when ?_) ?_ <;> decide +kernel

/-- A release links to a step with an instrument and a patch, which begins; or to one whose instrument site 0 holds. -/
theorem witness_SettleEnds_links :
    let c := { inPhase { StepEntry.reset with next := some 1023 } .settle with settleTimer := some 0 }
    let linking (s : State) : State := running 7 c { s with tables := { s.tables with steps := s.tables.steps.set 1023 measuringBehindPatch } }
    (let s := linking (instrumentUp 2 12 bench)
     s.AtRest ∧ s.runs[(7 : Site)].ctx = some c ∧ (s.elapse 0).ReleasesTo 7 c none
     ∧ ((s.elapse 0).released 7 c none).Chooses [] entered [] none)
    ∧ let s := linking (holding 2 0 [] (instrumentUp 2 12 bench))
      s.AtRest ∧ (s.elapse 0).ReleasesTo 7 c none ∧ ((s.elapse 0).released 7 c none).Idles := by
  refine ⟨⟨rest_when ?_, rfl, links_when 1023 (claims_when ?_) (nobody_when ?_) (enters_when ?_) ?_,
      chooses_step_when (i := 7) (p := 255) ?_ ?_⟩,
    rest_when ?_, links_when 1023 (claims_when ?_) (nobody_when ?_) (enters_when ?_) ?_, idles_when ?_⟩ <;> decide +kernel

/-- A step that collects on a lane, or settles on a lane that is not UP, with 31 records in the queue. -/
def failing (phase : Phase) (state : LaneState) : State :=
  let c := { inPhase (measuring 2 3) phase with tag := some 0xF001, settleTimer := some 1, collectTimer := some 1 }
  let s := withLane 2 (fun x => { x with state := state, timer := some 9 }) (running 7 c (holding 2 7 [] (instrumentUp 2 12 bench)))
  { s with results := s.results.set 7 { s.results[7] with records := List.replicate 31 (someRecord 1 false) } }

theorem witness_StepFails_claim :
    let s := queueing
    let c := inPhase { measuring 2 0 with settle := 1 } .claim
    s.AtRest ∧ s.runs[(3 : Site)].state = .running ∧ s.runs[(3 : Site)].ctx = some c ∧ 3 ∈ s.claims.records[(2 : LaneId)].waits
    ∧ s.claims.timers[(3 : Site)] = some 1500 ∧ s.ClaimsOrdered
    ∧ let t := (s.elapse 1500).claimsLeft fun j => decide (j = 3)
      t.Judges 3 (c.judging t .claimTimeout) none :=
  ⟨rest_when (by decide +kernel), by decide +kernel, rfl, by decide +kernel, by decide +kernel, claims_when (by decide +kernel),
    judges_when (claims_when (by decide +kernel)) (nobody_when (by decide +kernel)) (by decide +kernel)⟩

theorem witness_StepFails_hold :
    let c := inPhase { StepEntry.reset with patch := some 255 } .apply
    let x : Commit := { place := .site 7, work := .step 255, holdLimit := 1, remaining := 0 }
    let s := { running 7 c crowded with engine := { crowded.engine with queue := crowded.engine.queue ++ [x] } }
    s.AtRest ∧ s.runs[(7 : Site)].state = .running ∧ s.runs[(7 : Site)].ctx = some c
    ∧ (∀ y ∈ crowded.engine.queue, y.place ≠ .site 7)
    ∧ let u := s.elapse 0
      let t := { u with engine := { u.engine with
        queue := (crowded.engine.queue ++ []).map fun y : Commit => { y with remaining := y.remaining - x.remaining } } }
      t.Judges 7 (c.judging t .holdTimeout) none :=
  ⟨rest_when (by decide +kernel), by decide +kernel, rfl, by decide +kernel,
    judges_when (claims_when (by decide +kernel)) (nobody_when (by decide +kernel)) (by decide +kernel)⟩

theorem witness_StepFails_lane :
    (let s := failing .collect .up
     let t := (s.elapse 1).laneSent 2 0x31 0xF001 [0]
     s.AtRest ∧ s.runs[(7 : Site)].ctx.map (fun c => (c.entry.instrument, c.tag, c.collectTimer, c.samples)) = some (some 2, some 0xF001, some 1, [])
     ∧ ∀ c, s.runs[(7 : Site)].ctx = some c → t.Judges 7 (c.judging t .collectTimeout) none)
    ∧ let s := failing .settle .lost
      s.AtRest ∧ s.lanes[(2 : LaneId)].state ≠ .up
      ∧ s.runs[(7 : Site)].ctx.map (fun c => (c.entry.instrument, c.settleTimer)) = some (some 2, some 1)
      ∧ ∀ c, s.runs[(7 : Site)].ctx = some c → (s.elapse 1).Judges 7 (c.judging (s.elapse 1) .lane) none := by
  refine ⟨⟨rest_when (by decide +kernel), by decide +kernel, ?_⟩, rest_when (by decide +kernel), by decide +kernel, by decide +kernel, ?_⟩ <;>
    rintro c ⟨⟩ <;> exact judges_when (claims_when (by decide +kernel)) (nobody_when (by decide +kernel)) (by decide +kernel)

/-- The samples that are missing: one more than a reading brings, and as many. -/
theorem witness_ReadingsCollected :
    let s : State := metering [sample 1]
    s.AtRest ∧ s.runs[(3 : Site)].state = .running
    ∧ s.runs[(3 : Site)].ctx.map (fun c => (c.phase, c.cause, c.entry.instrument)) = some (.collect, .ok, some 2)
    ∧ s.runs[(3 : Site)].ctx.map (fun c => (c.samples.length, c.entry.sampleCode, c.tag, c.collectTimer)) = some (1, 3, some 0xB011, some 44000)
    ∧ s.claims.records[(2 : LaneId)].holder = some 3 ∧ s.lanes[(2 : LaneId)].state = .up ∧ s.tables.instruments[(2 : LaneId)].node = 12
    ∧ (s.runs[(3 : Site)].seq < 4096 ∧ (0xB011 : Tag) = BitVec.ofNat 16 (0x8000 + 4096 * 3 + s.runs[(3 : Site)].seq))
    ∧ (readFrame (reading 0xB011 0 [1, 2])).bind (fun f => readReading f.payload) = some (0, [sample 1, sample 2])
    ∧ (readFrame (reading 0xB011 0 [1, 2, 3])).bind (fun f => readReading f.payload) = some (0, [sample 1, sample 2, sample 3])
    ∧ (let u : State := { s with lanes := s.lanes.set 2 { s.lanes[2] with badRun := 0 } }
       ∀ x : StepContext, x.entry.instrument = some 2 → x.entry.next = none → u.Judges 3 x none)
    ∧ let u := (s.elapse 44000).laneSent 2 0x31 0xB011 [0]
      ∀ x : StepContext, x.entry.instrument = some 2 → x.entry.next = none → u.Judges 3 x none := by
  intro s
  refine ⟨rest_when ?_, ?_, ?_, ?_, ?_, ?_, ?_, ?_, ?_, ?_, fun x hi hn => judges_when (claims_when ?_) (nobody_when ?_) ⟨?_, ?_, ?_, hn⟩,
    fun x hi hn => judges_when (claims_when ?_) (nobody_when ?_) ⟨?_, ?_, ?_, hn⟩⟩ <;> try rw [hi]
  all_goals decide +kernel

/-- The instrument of a step that fails or ends goes to site 7, which waits for it with a patch; the engine begins that. -/
theorem witness_ReadingsCollected_hands :
    ∀ taken ∈ [[], [sample 1]],
      let s := running 7 (inPhase measuringBehindPatch .claim) (holding 2 3 [7] (metering taken))
      s.AtRest ∧ ∀ c, s.runs[(3 : Site)].ctx = some c →
        let u := (s.elapse 44000).laneSent 2 0x31 0xB011 [BitVec.ofNat 8 c.entry.channel]
        let x := if c.samples = [] then c.judging u .collectTimeout else { c with short := true }.judging u .ok
        u.Judges 3 x (some 7) ∧ (u.judged 3 x (some 7)).Chooses [] entered [] none := by
  simp only [List.forall_mem_cons]
  refine ⟨⟨rest_when (by decide +kernel), ?_⟩, ⟨rest_when (by decide +kernel), ?_⟩, List.forall_mem_nil _⟩ <;>
  · rintro c ⟨⟩
    refine ⟨judges_when (claims_when ?_) (hands_when 2 ?_) ?_, chooses_step_when (i := 7) (p := 255) ?_ ?_⟩ <;> decide +kernel

theorem witness_DivisionRounds : 0 < 1 ∧ 0 < 16384 := by decide

theorem witness_JudgementFollowsRules :
    [sample 0] ≠ [] ∧ { low := 0, high := 0, guard := 0, mode := .record : LimitEntry }.mode = .record := by decide

theorem witness_LimitsDecide :
    let e (m : LimitMode) (g : Nat) (h : Int) : LimitEntry := { low := 100, high := h, guard := g, mode := m }
    (e .both 0 100).mode = .both ∧ (e .both 0 100).low = (e .both 0 100).high ∧ (e .both 0 100).guard = 0
    ∧ (e .both 60 200).low + (e .both 60 200).guard > (e .both 60 200).high - (e .both 60 200).guard
    ∧ (e .both 60 200).low ≤ 100 ∧ 200 ≤ (e .both 60 200).high ∧ (e .low 0 200).mode = .low ∧ (e .high 0 200).mode = .high := by decide

theorem witness_SilenceAndClearSafe :
    (bench.Quiet ∧ bench.Listening) ∧ bench.protection.safe = false ∧ 80 < (81 : Byte).toNat ∧ (80 : Byte).toNat ≤ 80
    ∧ (State.reset.Quiet ∧ State.reset.Listening) ∧ State.reset.protection.safe = true ∧ State.reset.inputs.safeReq = false
    ∧ State.reset.protection.openDone = true
    ∧ (safeBreak.Quiet ∧ safeBreak.Listening)
    ∧ { safeBreak with protection := { safeBreak.protection with openDone := false } }.protection.openDone = false :=
  ⟨ready_when (by decide +kernel), by decide +kernel, by decide, by decide, ready_when (by decide +kernel), rfl, rfl, rfl,
    ready_when (by decide +kernel), rfl⟩

theorem witness_SafeEntered :
    ∀ s ∈ [inBreak, bench, fixture, queueing, failing .collect .up],
      (s.AtRest ∧ s.Listening ∧ s.ClaimsOrdered ∧ s.WaitersClaim) ∧ s.protection.safe = false
      ∧ s.inputs.safeReq = false ∧ s.protection.timer = some 400000 := by
  simp only [List.forall_mem_cons]
  refine ⟨⟨⟨rest_when ?_, (ready_when ?_).2, claims_when ?_, waiters_when ?_⟩, ?_⟩,
    ⟨⟨rest_when ?_, (ready_when ?_).2, claims_when ?_, waiters_when ?_⟩, ?_⟩,
    ⟨⟨rest_when ?_, (ready_when ?_).2, claims_when ?_, waiters_when ?_⟩, ?_⟩,
    ⟨⟨rest_when ?_, (ready_when ?_).2, claims_when ?_, waiters_when ?_⟩, ?_⟩,
    ⟨⟨rest_when ?_, (ready_when ?_).2, claims_when ?_, waiters_when ?_⟩, ?_⟩, List.forall_mem_nil _⟩ <;> decide +kernel

theorem witness_SafeCauseAdded :
    let s : State := { State.reset with protection := { State.reset.protection with timer := some 0 } }
    s.AtRest ∧ s.Listening ∧ s.protection.safe = true ∧ s.inputs.safeReq = false ∧ s.protection.timer = some 0
    ∧ { s.inputs with safeReq := true }.safeReq = true :=
  ⟨rest_when (by decide +kernel), (ready_when (by decide +kernel)).2, by decide +kernel⟩

theorem witness_ResetRequestsAct :
    ((inMake (.opening .runOpen)).Quiet ∧ (inMake (.opening .runOpen)).Listening) ∧ (inMake (.opening .runOpen)).trunk.resetRun ≠ none
    ∧ ∀ s ∈ [inBreak, bench, fixture, failing .collect .up], (s.Quiet ∧ s.Listening) ∧ s.trunk.resetRun = none := by
  simp only [List.forall_mem_cons]
  refine ⟨ready_when ?_, ?_, ⟨ready_when ?_, ?_⟩, ⟨ready_when ?_, ?_⟩, ⟨ready_when ?_, ?_⟩, ⟨ready_when ?_, ?_⟩, List.forall_mem_nil _⟩ <;>
    decide +kernel

theorem witness_FullResets :
    let f := rsp 1 [0x14, 0]
    let s : State := { bench with trunk := { bench.trunk with closed := true, sending := some f } }
    s.trunk.closed = true ∧ s.trunk.sending = some f ∧ f.kind = 0x41 ∧ f.payload = [0x14, 0] ∧ bench.trunk.closed = false
    ∧ bench.inputs.rstLow = false ∧ { bench.inputs with rstLow := true }.rstLow = true := by decide +kernel

theorem witness_SetLanesActs_named :
    (bench.Quiet ∧ bench.Listening) ∧ (Request.setLanes [⟨12, 0, 0⟩]).wf = true
    ∧ (∃ e ∈ [(⟨12, 0, 0⟩ : LaneSetRaw)], 11 < e.lane.toNat ∨ 1 < e.demand.toNat ∨ 1 < e.loopback.toNat)
    ∧ (Request.setLanes [⟨11, 0, 0⟩, ⟨11, 1, 1⟩]).wf = true
    ∧ (∀ e ∈ [(⟨11, 0, 0⟩ : LaneSetRaw), ⟨11, 1, 1⟩], e.lane.toNat ≤ 11 ∧ e.demand.toNat ≤ 1 ∧ e.loopback.toNat ≤ 1)
    ∧ ∀ l : LaneId, bench.lanes[l].state = .off :=
  ⟨ready_when (by decide +kernel), by decide +kernel⟩

theorem witness_SetLanesActs_one :
    let up := instrumentUp 11 12 bench
    let off (x : LaneState) := withLane 11 (fun y => { y with state := x, loopback := true }) bench
    ((up.Quiet ∧ up.Listening) ∧ up.LeavesCleanly 11)
    ∧ (((off .faulted).Quiet ∧ (off .faulted).Listening) ∧ (off .faulted).lanes[(11 : LaneId)].card ≠ .answer
      ∧ (off .faulted).lanes[(11 : LaneId)].state = .faulted)
    ∧ ((off .loop).Quiet ∧ (off .loop).Listening) ∧ (off .loop).lanes[(11 : LaneId)].card ≠ .answer
    ∧ (off .loop).lanes[(11 : LaneId)].state = .loop
    ∧ let calling := withLane 11 (fun y => { y with card := .answer }) (off .loop)
      (calling.Quiet ∧ calling.Listening) ∧ calling.lanes[(11 : LaneId)].card = .answer :=
  ⟨⟨ready_when (by decide +kernel), leaves_when (by decide +kernel) (contexts_when (by decide +kernel))⟩,
    ⟨ready_when (by decide +kernel), by decide +kernel⟩, ready_when (by decide +kernel), by decide +kernel, by decide +kernel,
    ready_when (by decide +kernel), by decide +kernel⟩

/-- Lane 11 in each of its states, with a timer that is about to run out. -/
def laneIn (x : LaneState) : State :=
  withLane 11 (fun y => { y with state := x, timer := some 1, quiet := some 1, goodRun := 3, badRun := 2 }) bench

theorem laneIn_rests (x : LaneState) : (laneIn x).AtRest ∧ (laneIn x).lanes[(11 : LaneId)].state = x
    ∧ (laneIn x).lanes[(11 : LaneId)].timer = some 1 ∧ (laneIn x).lanes[(11 : LaneId)].quiet = some 1
    ∧ (laneIn x).lanes[(11 : LaneId)].card = .quiet := by
  cases x <;> exact ⟨rest_when (by decide +kernel), by decide +kernel⟩

theorem witness_CardConditionsAct :
    (∀ x : LaneState, (laneIn x).AtRest ∧ (laneIn x).lanes[(11 : LaneId)].state = x ∧ (laneIn x).lanes[(11 : LaneId)].card ≠ .answer)
    ∧ (instrumentUp 11 12 bench).AtRest ∧ (instrumentUp 11 12 bench).LeavesCleanly 11
    ∧ (instrumentUp 11 12 bench).lanes[(11 : LaneId)].card ≠ .quiet :=
  ⟨fun x => ⟨(laneIn_rests x).1, (laneIn_rests x).2.1, (laneIn_rests x).2.2.2.2 ▸ nofun⟩, rest_when (by decide +kernel),
    leaves_when (by decide +kernel) (contexts_when (by decide +kernel)), by decide +kernel⟩

theorem witness_LaneWindowsExpire :
    (∀ x : LaneState, (laneIn x).AtRest ∧ (laneIn x).lanes[(11 : LaneId)].state = x ∧ (laneIn x).lanes[(11 : LaneId)].timer = some 1
      ∧ (laneIn x).lanes[(11 : LaneId)].quiet = some 1 ∧ (laneIn x).lanes[(11 : LaneId)].card ≠ .answer)
    ∧ (let s := withLane 11 (fun y => { y with card := .answer, attempts := 7 }) (laneIn .draining)
       s.AtRest ∧ s.lanes[(11 : LaneId)].card = .answer ∧ s.lanes[(11 : LaneId)].demand = false
       ∧ s.lanes[(11 : LaneId)].loopback = false ∧ ¬s.lanes[(11 : LaneId)].attempts + 1 < 8)
    ∧ (let s := withLane 11 (fun y => { y with card := .answer, demand := true }) (laneIn .draining)
       s.AtRest ∧ s.lanes[(11 : LaneId)].card = .answer ∧ s.lanes[(11 : LaneId)].demand = true)
    ∧ (Instr.wakeWindowExpire 11, LaneState.waking) ∈ [(Instr.wakeWindowExpire 11, LaneState.waking)] :=
  ⟨fun x => ⟨(laneIn_rests x).1, (laneIn_rests x).2.1, (laneIn_rests x).2.2.1, (laneIn_rests x).2.2.2.1,
    (laneIn_rests x).2.2.2.2 ▸ nofun⟩, ⟨rest_when (by decide +kernel), by decide +kernel⟩,
    ⟨rest_when (by decide +kernel), by decide +kernel⟩, by simp⟩

theorem witness_LaneSendsNext :
    (∀ x : LaneState, (laneIn x).AtRest ∧ (laneIn x).lanes[(11 : LaneId)].state = x)
    ∧ (let f : Frame := rsp 1 []
       let one := withLane 11 (fun y => { y with partFrames := [f], hostFrames := [f] }) (laneIn .up)
       let two := withLane 11 (fun y => { y with hostFrames := [f] }) (laneIn .up)
       (one.AtRest ∧ one.lanes[(11 : LaneId)].partFrames = f :: [])
       ∧ two.AtRest ∧ two.lanes[(11 : LaneId)].partFrames = [] ∧ two.lanes[(11 : LaneId)].hostFrames = f :: []) :=
  ⟨fun x => ⟨(laneIn_rests x).1, (laneIn_rests x).2.1⟩, ⟨rest_when (by decide +kernel), by decide +kernel⟩,
    rest_when (by decide +kernel), by decide +kernel⟩

theorem witness_LaneFramesCounted :
    (∀ x : LaneState, (laneIn x).AtRest ∧ (laneIn x).lanes[(11 : LaneId)].state = x)
    ∧ (readFrame cardIdle).isSome = true ∧ (readFrame badFrame).isSome = false ∧ (laneIn .loop).lanes[(11 : LaneId)].goodRun = 3
    ∧ (withLane 11 (fun y => { y with badRun := 1 }) (laneIn .up)).lanes[(11 : LaneId)].badRun < 2
    ∧ 2 ≤ (laneIn .up).lanes[(11 : LaneId)].badRun ∧ (laneIn .up).LeavesCleanly 11 :=
  ⟨fun x => ⟨(laneIn_rests x).1, (laneIn_rests x).2.1⟩, by decide +kernel, by decide +kernel, by decide +kernel, by decide +kernel,
    by decide +kernel, leaves_when (by decide +kernel) (contexts_when (by decide +kernel))⟩

/-- A reading that meets the departure from UP, in LOST and in DRAINING, of the last and the first channel. -/
theorem witness_LaneFramesCounted_meets :
    ∀ x ∈ [LaneState.lost, .draining], ∀ channel ∈ [(7 : Fin 8), 0],
      let s := withLane 2 (fun y => { y with state := x, timer := some 5000, leftStep := some (0xB011, channel) }) (metering [])
      let f : Frame := { dest := 240, source := 12, kind := 0x20, flags := 0, tag := 0xB011, payload := [BitVec.ofNat 8 channel, 1, 0, 0, 0, 1] }
      s.AtRest ∧ s.lanes[(2 : LaneId)].state = x ∧ readFrame f.bytes = some f ∧ s.MeetsDeparture 2 f := by
  simp only [List.forall_mem_cons]
  refine ⟨⟨⟨rest_when ?_, ?_, ?_, rfl, ?_, ?_, 7, [sample 1], ?_⟩, ⟨rest_when ?_, ?_, ?_, rfl, ?_, ?_, 0, [sample 1], ?_⟩, List.forall_mem_nil _⟩,
    ⟨⟨rest_when ?_, ?_, ?_, rfl, ?_, ?_, 7, [sample 1], ?_⟩, ⟨rest_when ?_, ?_, ?_, rfl, ?_, ?_, 0, [sample 1], ?_⟩, List.forall_mem_nil _⟩,
    List.forall_mem_nil _⟩ <;> decide +kernel

/-- Site 7 alone collects on lane 2, which has had two bad frames. -/
theorem witness_CollectingLaneLeavesUp :
    let s := withLane 2 (fun x => { x with badRun := 2 }) (failing .collect .up)
    s.AtRest ∧ s.Listening ∧ s.lanes[(2 : LaneId)].state = .up ∧ s.runs[(7 : Site)].state = .running
    ∧ s.runs[(7 : Site)].ctx.map (fun c => (c.phase, c.entry.instrument)) = some (.collect, some 2)
    ∧ (∀ j : Site, s.Collects j 2 → j = 7) ∧ s.lanes[(2 : LaneId)].card = .stream ∧ readFrame badFrame = none ∧ 2 ≤ s.lanes[(2 : LaneId)].badRun
    ∧ ∀ t : State, t.claims = s.claims → t.runs = s.runs → t.engine = s.engine →
        ∀ x : StepContext, x.entry.instrument = some 2 → x.entry.next = none → t.Judges 7 x none := by
  refine ⟨rest_when (by decide +kernel), (ready_when (by decide +kernel)).2, by decide +kernel, by decide +kernel, by decide +kernel, ?_,
    by decide +kernel, by decide +kernel, by decide +kernel, ?_⟩
  · rintro j ⟨c, hc, -⟩
    have h : ∀ j : Site, (failing .collect .up).runs[j].ctx.isSome = true → j = 7 := by decide +kernel
    exact h j (hc ▸ rfl)
  · intro t hc hr he x hi hn
    refine judges_when (claims_when ?_) (nobody_when ?_) ⟨?_, ?_, ?_, hn⟩
    · rw [hc]; decide +kernel
    · rw [hc]; decide +kernel
    · rw [hr]; decide +kernel
    · rw [hc, hi]; decide +kernel
    · rw [he]; decide +kernel

/-- A good frame of each kind of traffic, from the meter of lane 2. -/
theorem witness_LaneTrafficRouted :
    (metering []).AtRest ∧ (metering []).lanes[(2 : LaneId)].state = .up
    ∧ (readFrame cardIdle).map Frame.kind = some 0x00 ∧ (0x00 : Byte) ∉ [(0x11 : Byte), 0x20, 0x21]
    ∧ (readFrame ({ dest := 240, source := 12, kind := 0x11, flags := 0, tag := 1, payload := [] } : Frame).bytes).map Frame.kind = some 0x11
    ∧ readReports [1, 0, 2] = none ∧ readReports [2, 0, 0, 7, 1] = some [(0, .off), (7, .on)]
    ∧ (metering []).tables.instruments[(2 : LaneId)].node = 12
    ∧ ((metering []).engine.queue = [] ∨ (metering []).engine.flight ≠ none) :=
  ⟨rest_when (by decide +kernel), by decide +kernel, by decide +kernel, by decide, by decide +kernel, by decide +kernel⟩

/-- Readings at the meter of lane 2 for no step and for the step of site 3: of this sequence, of the one before it, on another channel. -/
theorem witness_ReadingsRouted :
    (metering []).AtRest ∧ (metering []).lanes[(2 : LaneId)].state = .up
    ∧ ((readFrame (reading 0x7FFF 0 [1])).map fun f => (f.kind, f.tag.getLsbD 15)) = some (0x20, false)
    ∧ ((readFrame (reading 0xB010 0 [1])).map fun f => (f.kind, f.tag.getLsbD 15, f.tag.toNat / 4096 % 8)) = some (0x20, true, 3)
    ∧ 0xB010 % 4096 ≠ (metering []).runs[(3 : Site)].seq
    ∧ (readFrame (reading 0xB011 1 [1])).bind (fun f => readReading f.payload) = some (1, [sample 1])
    ∧ (metering []).runs[(3 : Site)].ctx.map (fun c => decide (1 ≠ c.entry.channel)) = some true
    ∧ (metering []).claims.records[(2 : LaneId)].holder ≠ some 0 :=
  ⟨rest_when (by decide +kernel), by decide +kernel⟩

theorem witness_TapsSetAndTaken :
    (bench.Quiet ∧ bench.Listening) ∧ (Request.setTaps [⟨3, 1, 239, 7, 1⟩]).wf = true ∧ (Request.setTaps []).wf = true
    ∧ (TapRaw.read ⟨3, 1, 239, 7, 1⟩).isSome = true ∧ (TapRaw.read ⟨4, 1, 239, 7, 1⟩).isSome = false :=
  ⟨ready_when (by decide +kernel), by decide +kernel⟩

/-- A frame on the trunk that is not a CMD. -/
def trunkFrame (source kind dest : Byte) : Frame := { dest := dest, source := source, kind := kind, flags := 0, tag := 1, payload := [] }

theorem witness_TrunkFramesJudged :
    (Instr.nop 5).request = some (5, .nop) ∧ (bench.AtRest ∧ bench.trunk.input = []) ∧ ((waiting 7 false).AtRest ∧ (waiting 7 false).trunk.input ≠ [])
    ∧ ((waiting 8 false).AtRest ∧ (waiting 8 false).trunk.input ≠ []) ∧ ((waiting 0 false).AtRest ∧ (waiting 0 false).trunk.responses ≠ [])
    ∧ ((waiting 0 true).AtRest ∧ (waiting 0 true).trunk.closed = true) ∧ readFrame badFrame = none
    ∧ (∀ f ∈ [trunkFrame 249 0x40 240, trunkFrame 250 0 0, trunkFrame 250 0x10 240, trunkFrame 250 0x41 240],
        readFrame f.bytes = some f)
    ∧ (trunkFrame 249 0x40 240).source ≠ 250 ∧ (240 : Byte) ≠ 255 ∧ 239 < (240 : Byte).toNat ∧ (0x41 : Byte) ≠ 0x10 :=
  ⟨rfl, ⟨rest_when (by decide +kernel), rfl⟩, ⟨rest_when (by decide +kernel), by decide +kernel⟩,
    ⟨rest_when (by decide +kernel), by decide +kernel⟩, ⟨rest_when (by decide +kernel), by decide +kernel⟩,
    ⟨rest_when (by decide +kernel), by decide +kernel⟩, by decide +kernel⟩

theorem witness_CommandsForwarded :
    let s := instrumentUp 2 239 bench
    s.AtRest ∧ s.trunk.input = []
    ∧ (∀ dest : Byte, dest ∈ [(1 : Byte), 239, 255] → readFrame (trunkFrame 250 0x10 dest).bytes = some (trunkFrame 250 0x10 dest))
    ∧ (∀ l : LaneId, s.tables.instruments[l].node ≠ 1) ∧ (∀ k : LaneId, s.tables.instruments[k].node = 239 ↔ k = 2) := by
  refine ⟨rest_when (by decide +kernel), rfl, ?_, by decide +kernel⟩
  simp only [List.forall_mem_cons]
  refine ⟨?_, ?_, ?_, List.forall_mem_nil _⟩ <;> decide +kernel

/-- A site whose queue holds some records and a credit. -/
def delivering (records : List StepRecord) (batch credit : Nat) : State :=
  { bench with
    results := bench.results.set 7 { records := records, summary := none, credit := credit, seq := 4095 }
    tables := { bench.tables with sites := bench.tables.sites.set 7 { SiteEntry.reset 7 with batch := batch } } }

theorem witness_TransmitterChooses :
    let f : Frame := rsp 1 [0, 0]
    let response : State := { bench with trunk := { bench.trunk with responses := [f] } }
    let event : State := { bench with trunk := { bench.trunk with events := [(4095, .safeClear)] } }
    let bounce : State := { bench with trunk := { bench.trunk with bounces := [{ tag := 1, reason := .held, node := 2 }] } }
    let up := withLane 11 (fun x => { x with upBuffer := [f] }) bench
    (∀ s ∈ [response, event, bounce, up, delivering (List.replicate 31 (someRecord 1 false)) 31 1,
          delivering [someRecord 1 false, someRecord 1 true] 32 255, bench],
        s.AtRest ∧ s.sendingReset = false ∧ s.trunk.input = [])
    ∧ ((waiting 8 true).AtRest ∧ (waiting 8 true).sendingReset = false ∧ (waiting 8 true).trunk.responses = [])
    ∧ (let s : State := { bench with trunk := { bench.trunk with closed := true, sending := some (rsp 1 [0x14, 0]) } }
       s.AtRest ∧ s.sendingReset = true)
    ∧ up.lanes[(11 : LaneId)].upBuffer = f :: []
    ∧ (∀ k : LaneId, (k.val + 11 - up.trunk.lastLane) % 12 < (11 + 11 - up.trunk.lastLane) % 12 → up.lanes[k].upBuffer = [])
    ∧ (∀ k : Site, (k.val + 7 - bench.trunk.lastSite) % 8 < (7 + 7 - bench.trunk.lastSite) % 8 → bench.results[k].credit < 1)
    ∧ bench.runs[(7 : Site)].ctx = none := by
  intro f response event bounce up
  refine ⟨?_, ⟨rest_when (by decide +kernel), rfl, rfl⟩, ⟨rest_when (by decide +kernel), by decide⟩, by decide +kernel⟩
  simp only [List.forall_mem_cons]
  refine ⟨⟨rest_when ?_, ?_⟩, ⟨rest_when ?_, ?_⟩, ⟨rest_when ?_, ?_⟩, ⟨rest_when ?_, ?_⟩, ⟨rest_when ?_, ?_⟩, ⟨rest_when ?_, ?_⟩,
    ⟨rest_when ?_, ?_⟩, List.forall_mem_nil _⟩ <;> decide +kernel

/-- Site 7 has 32 records and waits in JUDGE with one more. -/
def judgeWaits : State :=
  running 7 (inPhase (measuring 2 0) .judge)
    (holding 2 7 [] (instrumentUp 2 12 (delivering (List.replicate 32 (someRecord 1 false)) 32 1)))

theorem judgeWaits_next : judgeWaits.ResNext 7 ∧ judgeWaits.Candidate 7 32 := by
  have first : ∀ k : Site, (k.val + 7 - judgeWaits.trunk.lastSite) % 8 < ((7 : Site).val + 7 - judgeWaits.trunk.lastSite) % 8 →
      ¬1 ≤ judgeWaits.results[k].credit := by decide +kernel
  refine ⟨⟨rfl, rfl, rfl, by decide +kernel, ⟨by decide +kernel, by decide +kernel, .inr (.inr (by decide +kernel))⟩,
    fun k hk hd => first k hk hd.1⟩, ?_⟩
  simp only [State.Candidate]
  rw [if_pos (.inl (by decide +kernel))]
  decide +kernel

theorem witness_TransmitterFreesOthers :
    (judgeWaits.AtRest ∧ judgeWaits.sendingReset = false ∧ judgeWaits.runs[(7 : Site)].ctx = some (inPhase (measuring 2 0) .judge)
      ∧ min 32 (min judgeWaits.results[(7 : Site)].credit 16) = 1
      ∧ (judgeWaits.resSent 7 1).Judges 7 (inPhase (measuring 2 0) .judge) none)
    ∧ let s : State := { bench with
        trunk := { bench.trunk with responses := [rsp 1 [0, 0]], input := [hostFrame 2 [0]] }
        protection := { bench.protection with timer := some (bench.protection.setting * 100000) } }
      s.AtRest ∧ s.sendingReset = false ∧ s.trunk.responses = [rsp 1 [0, 0]] ∧ s.trunk.input = [hostFrame 2 [0]] ∧ s.trunk.closed = false :=
  ⟨⟨rest_when (by decide +kernel), rfl, rfl, by decide +kernel,
    judges_when (claims_when (by decide +kernel)) (nobody_when (by decide +kernel)) (by decide +kernel)⟩,
    rest_when (by decide +kernel), rfl, rfl, rfl, rfl⟩

end Sys2Proof.Tests
end

section
/-! The answers of READ MATRIX and VERIFY MATRIX (spec R20, R21). -/

namespace Sys2Proof.Machine

/-! ### The flags of a group -/

/-- Position k of a group is pin 32 × group + k, at its place in the image (spec R2, R20). -/
theorem groupFlags_getLsbD (x : Crosspoints) (b : Bus) {group k : Nat} (hg : group ≤ 11) (hk : k < 32) :
    (groupFlags x b group).getLsbD k = x.getLsbD (384 * b + (32 * group + k)) := by
  have hp : 32 * group + k < 384 := by omega
  simp only [groupFlags, row, BitVec.getLsbD_extractLsb', hk, hp, decide_true, Bool.true_and]

/-- A bit stands after a run of intersections exactly when it stood before and stands in every set met. -/
theorem foldl_and_getLsbD {α : Type} {w : Nat} (f : α → BitVec w) (l : List α) (x : BitVec w) (k : Nat) :
    (l.foldl (fun acc a => acc &&& f a) x).getLsbD k = true ↔ x.getLsbD k = true ∧ ∀ a ∈ l, (f a).getLsbD k = true := by
  induction l generalizing x with
  | nil => simp
  | cons a l ih =>
    rw [List.foldl_cons, ih, BitVec.getLsbD_and, Bool.and_eq_true, List.forall_mem_cons, and_assoc]

/-- A pin's match flag is set exactly when its flag on every care bus is the expected one (spec R21). -/
theorem matchFlags_getLsbD (x : Crosspoints) (group : Nat) (expected care : BusSet) {k : Nat} (hk : k < 32) :
    (matchFlags x group expected care).getLsbD k = true
      ↔ ∀ b : Bus, care.getLsbD b = true → (groupFlags x b group).getLsbD k = expected.getLsbD b := by
  have hbus : ∀ b : Bus, (if expected.getLsbD b then groupFlags x b group else ~~~(groupFlags x b group)).getLsbD k = true
      ↔ (groupFlags x b group).getLsbD k = expected.getLsbD b := by
    intro b
    cases expected.getLsbD b
    · simp [hk]
    · simp
  simp only [matchFlags, foldl_and_getLsbD, BitVec.getLsbD_allOnes, hk, decide_true, true_and, List.mem_filter, List.mem_finRange, hbus]

/-! ### Requests that are answered and change nothing -/

/-- A request at a quiet, listening part whose serving only answers: the command leaves the part with that answer. -/
theorem exec_answered {c : Instr} {tag : Tag} {r : Request} {s : State} {p : List Byte} (hr : c.request = some (tag, r)) (hq : s.Quiet)
    (hl : s.Listening) (hp : r.payload.length ≤ 1024) (hread : readRequest r.payload = some r)
    (hs : serve tag r s.heard = s.heard.answer tag p) : exec c s = .next (s.heard.answer tag p) :=
  exec_served hr hq hl hp hread hs ((heard_quiet hq).answer tag p) hl.input

theorem serveReadMatrix_of_past {group : Byte} (hg : 11 < group.toNat) (tag : Tag) (s : State) :
    serveReadMatrix tag group s = s.answer tag [0x06, 2] := if_pos hg

theorem serveReadMatrix_of_group {group : Byte} (hg : group.toNat ≤ 11) (tag : Tag) (s : State) :
    serveReadMatrix tag group s
      = s.answer tag (0x06 :: 0 :: (allBuses.map fun b => bytes4 (groupFlags s.matrix.image b group.toNat)).flatten) :=
  if_neg (Nat.not_lt.mpr hg)

theorem serveVerifyMatrix_of_past {group : Byte} (hg : 11 < group.toNat) (tag : Tag) (expected care : BusSet) (s : State) :
    serveVerifyMatrix tag group expected care s = s.answer tag [0x07, 2] := if_pos hg

theorem serveVerifyMatrix_of_group {group : Byte} (hg : group.toNat ≤ 11) (tag : Tag) (expected care : BusSet) (s : State) :
    serveVerifyMatrix tag group expected care s
      = s.answer tag ([0x07, 0] ++ bytes4 (matchFlags s.matrix.image group.toNat expected care)) :=
  if_neg (Nat.not_lt.mpr hg)

/-- READ MATRIX of a listening part answers what its serving answers. -/
theorem exec_readMatrix {tag : Tag} {group : Byte} {s : State} {p : List Byte} (hq : s.Quiet) (hl : s.Listening)
    (hs : serveReadMatrix tag group s.heard = s.heard.answer tag p) : exec (.readMatrix tag group) s = .next (s.heard.answer tag p) :=
  exec_answered (r := .readMatrix group) rfl hq hl (by simp [Request.payload]) rfl hs

/-- VERIFY MATRIX of a listening part answers what its serving answers. -/
theorem exec_verifyMatrix {tag : Tag} {group : Byte} {expected care : BusSet} {s : State} {p : List Byte} (hq : s.Quiet) (hl : s.Listening)
    (hs : serveVerifyMatrix tag group expected care s.heard = s.heard.answer tag p) :
    exec (.verifyMatrix tag group expected care) s = .next (s.heard.answer tag p) :=
  exec_answered (r := .verifyMatrix group expected care) rfl hq hl (by simp [Request.payload]) rfl hs

/-- Settles O17: the flags answered are the group's flags of the image, which the arrival of the request leaves as it stands. -/
theorem matrixAnswers : Obligations.MatrixAnswers := by
  unfold Obligations.MatrixAnswers
  refine ⟨fun tag group s hq hl => ⟨fun hg => ?_, fun hg => ?_⟩, fun tag group expected care s hq hl => ⟨fun hg => ?_, fun hg => ?_⟩⟩
  · exact exec_readMatrix hq hl (serveReadMatrix_of_past hg tag s.heard)
  · exact ⟨fun b => groupFlags s.matrix.image b group.toNat, exec_readMatrix hq hl (serveReadMatrix_of_group hg tag s.heard),
      fun b k hk => groupFlags_getLsbD s.matrix.image b hg hk⟩
  · exact exec_verifyMatrix hq hl (serveVerifyMatrix_of_past hg tag expected care s.heard)
  · refine ⟨matchFlags s.matrix.image group.toNat expected care,
      exec_verifyMatrix hq hl (serveVerifyMatrix_of_group hg tag expected care s.heard), fun k hk => ?_⟩
    simp only [matchFlags_getLsbD _ _ _ _ hk, groupFlags_getLsbD _ _ hg hk]

end Sys2Proof.Machine
end

section
/-! The division of the conversion (spec R107 to R110) and the verdict under a limit (spec R114, R115). -/

namespace Sys2Proof.Machine

/-! ### Division by halves away from zero -/

/-- R107's two steps: the quotient of the magnitudes, rounded up from one half on, then the dividend's sign. -/
theorem roundDiv_eq (a : Int) (b : Nat) :
    roundDiv a b = (if a < 0 then -1 else 1) * (a.natAbs / b + if 2 * (a.natAbs % b) ≥ b then 1 else 0 : Nat) := by
  unfold roundDiv
  by_cases hhalf : b ≤ 2 * (a.natAbs % b) <;> by_cases hneg : a < 0 <;> simp [hhalf, hneg]

theorem roundDiv_zero {b : Nat} (hb : 0 < b) : roundDiv 0 b = 0 := by
  simp [roundDiv_eq, Nat.not_le.mpr hb]

theorem roundDiv_neg (a : Int) {b : Nat} (hb : 0 < b) : roundDiv (-a) b = -roundDiv a b := by
  rcases lt_trichotomy a 0 with ha | rfl | ha
  · rw [roundDiv_eq, roundDiv_eq, Int.natAbs_neg, if_pos ha, if_neg (by omega : ¬ -a < 0), one_mul, neg_one_mul, neg_neg]
  · rw [neg_zero, roundDiv_zero hb, neg_zero]
  · rw [roundDiv_eq, roundDiv_eq, Int.natAbs_neg, if_pos (by omega : -a < 0), if_neg (by omega : ¬ a < 0), one_mul, neg_one_mul]

/-- q is an integer nearest to a / b, and where two are, the one farther from zero; multiplied out by b. -/
def RoundsTo (a : Int) (b : Nat) (q : Int) : Prop :=
  2 * (q * b - a).natAbs ≤ b ∧ (2 * (q * b - a).natAbs = b → a.natAbs < (q * b).natAbs)

theorem RoundsTo.neg {a q : Int} {b : Nat} (h : RoundsTo a b q) : RoundsTo (-a) b (-q) := by
  have hdist : (-q * b - -a).natAbs = (q * b - a).natAbs := by
    rw [show -q * (b : Int) - -a = -(q * b - a) by ring, Int.natAbs_neg]
  have hsize : (-q * b).natAbs = (q * b).natAbs := by rw [neg_mul, Int.natAbs_neg]
  rwa [RoundsTo, hdist, hsize, Int.natAbs_neg]

theorem roundsTo_roundDiv_natCast (n : Nat) {b : Nat} (hb : 0 < b) : RoundsTo n b (roundDiv n b) := by
  have hdiv : b * (n / b) + n % b = n := Nat.div_add_mod n b
  have hrem : n % b < b := Nat.mod_lt n hb
  have hmul : ((n / b : Nat) : Int) * b = (b * (n / b) : Nat) := by push_cast; ring
  have hnonneg : ¬ (n : Int) < 0 := by omega
  unfold RoundsTo
  rw [roundDiv_eq, if_neg hnonneg, one_mul, Int.natAbs_natCast]
  generalize hP : b * (n / b) = P at hdiv hmul
  by_cases hhalf : 2 * (n % b) ≥ b
  · rw [if_pos hhalf, Nat.cast_add_one, add_one_mul, hmul]
    omega
  · rw [if_neg hhalf, Nat.add_zero, hmul]
    omega

theorem roundsTo_roundDiv (a : Int) {b : Nat} (hb : 0 < b) : RoundsTo a b (roundDiv a b) := by
  obtain ⟨n, rfl | rfl⟩ := a.eq_nat_or_neg
  · exact roundsTo_roundDiv_natCast n hb
  · rw [roundDiv_neg _ hb]
    exact (roundsTo_roundDiv_natCast n hb).neg

/-- Two integers as near as one half are neighbours with the quotient halfway between, and only one of them is farther from zero. -/
theorem RoundsTo.not_lt {a q r : Int} {b : Nat} (hb : 0 < b) (hq : RoundsTo a b q) (hr : RoundsTo a b r) : ¬ q < r := by
  intro hlt
  obtain ⟨hnearq, hfarq⟩ := hq
  obtain ⟨hnearr, hfarr⟩ := hr
  have hgap : q * b + b ≤ r * b := by
    rw [← add_one_mul]
    exact mul_le_mul_of_nonneg_right hlt (by omega)
  have hside : 0 ≤ q * b ∨ q * b + b ≤ 0 := by
    rcases lt_or_ge q 0 with hneg | hnonneg
    · right
      rw [← add_one_mul]
      exact mul_nonpos_of_nonpos_of_nonneg (by omega) (by omega)
    · exact .inl (mul_nonneg hnonneg (by omega))
  omega

theorem roundDiv_eq_iff (a : Int) {b : Nat} (hb : 0 < b) (q : Int) : roundDiv a b = q ↔ RoundsTo a b q := by
  have hround : RoundsTo a b (roundDiv a b) := roundsTo_roundDiv a hb
  constructor
  · rintro rfl
    exact hround
  · intro hq
    exact le_antisymm (not_lt.mp (hq.not_lt hb hround)) (not_lt.mp (hround.not_lt hb hq))

theorem correctedSum_eq_sum (offset : Int) (samples : List Sample) :
    correctedSum offset samples = (samples.map fun x => x.raw - offset).sum := by
  rw [correctedSum, List.sum_eq_foldl, List.foldl_map]

/-- Settles O40: the division is a nearest integer, the one farther from zero of two, and there is only one such. -/
theorem divisionRounds : Obligations.DivisionRounds := by
  unfold Obligations.DivisionRounds
  refine ⟨fun a b hb => ⟨roundDiv_eq a b, roundDiv_neg a hb, roundDiv_eq_iff a hb⟩, fun cal samples => ?_, fun _ _ => rfl⟩
  rw [rawMean, correctedSum_eq_sum]

/-! ### The verdict under a limit, mode by mode -/

theorem limitVerdict_of_both {e : LimitEntry} (h : e.mode = .both) (v : Int) :
    limitVerdict (some e) v = if v < e.low then .failLow else if v > e.high then .failHigh
      else if e.low + e.guard ≤ v ∧ v ≤ e.high - e.guard then .pass else .marginal := by
  simp only [limitVerdict, h]

theorem limitVerdict_of_low {e : LimitEntry} (h : e.mode = .low) (v : Int) :
    limitVerdict (some e) v = if v < e.low then .failLow else if v ≥ e.low + e.guard then .pass else .marginal := by
  simp only [limitVerdict, h, ge_iff_le]

theorem limitVerdict_of_high {e : LimitEntry} (h : e.mode = .high) (v : Int) :
    limitVerdict (some e) v = if v > e.high then .failHigh else if v ≤ e.high - e.guard then .pass else .marginal := by
  simp only [limitVerdict, h]

section Both
variable {e : LimitEntry} (h : e.mode = .both) (v : Int)
include h

theorem limitVerdict_both_failLow_iff : limitVerdict (some e) v = .failLow ↔ v < e.low := by
  rw [limitVerdict_of_both h]
  split_ifs with hlow <;> simp [hlow]

theorem limitVerdict_both_failHigh_iff : limitVerdict (some e) v = .failHigh ↔ e.low ≤ v ∧ e.high < v := by
  rw [limitVerdict_of_both h]
  split_ifs with hlow hhigh <;> simp <;> omega

theorem limitVerdict_both_pass_iff :
    limitVerdict (some e) v = .pass ↔ e.low ≤ v ∧ v ≤ e.high ∧ e.low + e.guard ≤ v ∧ v ≤ e.high - e.guard := by
  rw [limitVerdict_of_both h]
  split_ifs with hlow hhigh hband <;> simp <;> omega

theorem limitVerdict_both_marginal_iff :
    limitVerdict (some e) v = .marginal ↔ e.low ≤ v ∧ v ≤ e.high ∧ ¬(e.low + e.guard ≤ v ∧ v ≤ e.high - e.guard) := by
  rw [limitVerdict_of_both h]
  split_ifs with hlow hhigh hband <;> simp <;> omega

end Both

/-- Without a guard no value above the low limit is MARGINAL (spec R115). -/
theorem limitVerdict_low_ne_marginal {e : LimitEntry} (h : e.mode = .low) (hg : e.guard = 0) (v : Int) :
    limitVerdict (some e) v ≠ .marginal := by
  rw [limitVerdict_of_low h]
  split_ifs with hlow hband
  · exact nofun
  · exact nofun
  · omega

/-- Without a guard no value below the high limit is MARGINAL (spec R115). -/
theorem limitVerdict_high_ne_marginal {e : LimitEntry} (h : e.mode = .high) (hg : e.guard = 0) (v : Int) :
    limitVerdict (some e) v ≠ .marginal := by
  rw [limitVerdict_of_high h]
  split_ifs with hhigh hband
  · exact nofun
  · exact nofun
  · omega

theorem limitVerdict_low_ne_failHigh {e : LimitEntry} (h : e.mode = .low) (v : Int) : limitVerdict (some e) v ≠ .failHigh := by
  rw [limitVerdict_of_low h]
  split_ifs <;> exact nofun

theorem limitVerdict_high_ne_failLow {e : LimitEntry} (h : e.mode = .high) (v : Int) : limitVerdict (some e) v ≠ .failLow := by
  rw [limitVerdict_of_high h]
  split_ifs <;> exact nofun

/-- Settles O42: the boundary remarks of R114 follow from when each verdict is given, those of R115 from each mode's equation. -/
theorem limitsDecide : Obligations.LimitsDecide := by
  unfold Obligations.LimitsDecide
  refine ⟨fun e v h => ?_, fun e v => ⟨fun h => ?_, fun h => ?_⟩⟩
  · have hpass := limitVerdict_both_pass_iff h v
    have hmarginal := limitVerdict_both_marginal_iff h v
    have hfailLow := limitVerdict_both_failLow_iff h v
    have hfailHigh := limitVerdict_both_failHigh_iff h v
    refine ⟨hfailLow, hfailHigh, hpass, hmarginal, fun hg hl hu => ?_, fun hempty hl hu => ?_, fun heq hg => ⟨?_, fun hne => ?_⟩⟩
    · exact hpass.mpr (by omega)
    · exact hmarginal.mpr (by omega)
    · rw [hpass]
      omega
    · rw [hfailLow, hfailHigh]
      omega
  · refine ⟨limitVerdict_of_low h v, fun top => ?_, limitVerdict_low_ne_failHigh h v, fun hg => limitVerdict_low_ne_marginal h hg v⟩
    rw [limitVerdict_of_low h, limitVerdict_of_low (e := { e with high := top }) h]
  · refine ⟨limitVerdict_of_high h v, fun bottom => ?_, limitVerdict_high_ne_failLow h v, fun hg => limitVerdict_high_ne_marginal h hg v⟩
    rw [limitVerdict_of_high h, limitVerdict_of_high (e := { e with low := bottom }) h]

end Sys2Proof.Machine
end
